-- ==== Sys2Proof/Word.lean ====
section
/-! DEFINITION. The machine's words and the plain table type that every sparse store of the state uses. -/

namespace Sys2Proof

/-- A 32-bit register lane, instruction word or memory word (R33, R43). -/
abbrev Word := BitVec 32

/-- One byte of memory. -/
abbrev Byte := BitVec 8

/-- One bit for each of the 32 lanes of a crew, lane 0 in bit 0. -/
abbrev LaneMask := BitVec 32

/-- A sparse table: keys strictly rising, no entry equal to the table's default value
(`Sys2Proof.Machine.Tab.wf`). -/
abbrev Tab (β : Type) := List (Nat × β)

end Sys2Proof
end

