-- ==== Sys2Proof/Machine/Float.lean ====
section
/-! DEFINITION. Number formats and rounding (spec/03, R67 to R86): exact dyadic values, decoding of every floating
format, the one rounding of R80 and R81, E8M0 and DS8. -/

namespace Sys2Proof.Machine

/-- An exact value: NaN, an infinity, or ±m·2^e (with a signed zero). -/
inductive FVal where
  | nan
  | inf (neg : Bool)
  | fin (neg : Bool) (m : Nat) (e : Int)
deriving DecidableEq, Repr

/-- How a format encodes NaN (R69). -/
inductive NanKind where
  | ieee | allOnes | absent
deriving DecidableEq, Repr

/-- A floating-point format of R69. -/
structure Fmt where
  ebits : Nat
  mbits : Nat
  bias : Nat
  nanKind : NanKind
  /-- the NaN encoding the device writes (R71); 0 where the format has none -/
  nanEnc : Nat
deriving DecidableEq, Repr

namespace Fmt
def fp32 : Fmt := ⟨8, 23, 127, .ieee, 0x7FC00000⟩
def bf16 : Fmt := ⟨8, 7, 127, .ieee, 0x7FC0⟩
def fp16 : Fmt := ⟨5, 10, 15, .ieee, 0x7E00⟩
def e5m2 : Fmt := ⟨5, 2, 15, .ieee, 0x7E⟩
def e4m3 : Fmt := ⟨4, 3, 7, .allOnes, 0x7F⟩
def e3m2 : Fmt := ⟨3, 2, 3, .absent, 0⟩
def e2m3 : Fmt := ⟨2, 3, 1, .absent, 0⟩
def e2m1 : Fmt := ⟨2, 1, 1, .absent, 0⟩
end Fmt

/-- Width of an encoding. -/
def Fmt.width (F : Fmt) : Nat := 1 + F.ebits + F.mbits

/-- The exponent of one unit of the smallest subnormal. -/
def Fmt.qmin (F : Fmt) : Int := 1 - (F.bias : Int) - F.mbits

/-- Magnitude encoding of infinity, which is the first one past the finite values in an IEEE-like format. -/
def Fmt.infEnc (F : Fmt) : Nat := (2 ^ F.ebits - 1) * 2 ^ F.mbits

/-- Magnitude encoding of the largest finite value (R69). -/
def Fmt.maxEnc (F : Fmt) : Nat :=
  match F.nanKind with
  | .ieee => F.infEnc - 1
  | .allOnes => 2 ^ (F.ebits + F.mbits) - 2
  | .absent => 2 ^ (F.ebits + F.mbits) - 1

def Fmt.hasInf (F : Fmt) : Bool := F.nanKind = .ieee

/-- The value of an encoding (R69, R70); `flush` replaces a subnormal by a zero of its sign (R79). -/
def Fmt.decode (F : Fmt) (flush : Bool) (bits : Nat) : FVal :=
  let neg := bits / 2 ^ (F.ebits + F.mbits) % 2 = 1
  let mag := bits % 2 ^ (F.ebits + F.mbits)
  let E := mag / 2 ^ F.mbits
  let M := mag % 2 ^ F.mbits
  if F.nanKind = .ieee && F.infEnc < mag then .nan
  else if F.nanKind = .ieee && mag = F.infEnc then .inf neg
  else if F.nanKind = .allOnes && mag = 2 ^ (F.ebits + F.mbits) - 1 then .nan
  else if E = 0 then .fin neg (if flush then 0 else M) F.qmin
  else .fin neg (2 ^ F.mbits + M) (F.qmin + E - 1)

/-- Whether rounding moves the kept quotient up (R79, R80): `rest` over 2^s of a unit is dropped. -/
def roundsUp (mode : Nat) (neg : Bool) (q rest s : Nat) : Bool :=
  match mode with
  | 1 => false
  | 2 => neg && rest != 0
  | 3 => !neg && rest != 0
  | 4 => s != 0 && 2 ^ (s - 1) ≤ rest
  | _ => s != 0 && (2 ^ (s - 1) < rest || (rest = 2 ^ (s - 1) && q % 2 = 1))

/-- m·2^e as a whole number of units 2^u under a mode. -/
def roundUnits (mode : Nat) (neg : Bool) (m : Nat) (e u : Int) : Nat :=
  if u ≤ e then m * 2 ^ (e - u).toNat
  else
    let s := (u - e).toNat
    let q := m / 2 ^ s
    q + if roundsUp mode neg q (m % 2 ^ s) s then 1 else 0

/-- Magnitude encoding of a non-zero m·2^e rounded with the exponent range extended upward (R80). -/
def Fmt.extEnc (F : Fmt) (mode : Nat) (neg : Bool) (m : Nat) (e : Int) : Nat :=
  let u := max ((Nat.log2 m : Int) + e - F.mbits) F.qmin
  (u - F.qmin).toNat * 2 ^ F.mbits + roundUnits mode neg m e u

def Fmt.sign (F : Fmt) (neg : Bool) (mag : Nat) : Nat := if neg then 2 ^ (F.ebits + F.mbits) + mag else mag

/-- round(v, F, mode) of R80, as an encoding. -/
def Fmt.round (F : Fmt) (mode : Nat) (v : FVal) : Nat :=
  match v with
  | .nan => F.nanEnc
  | .inf neg => F.sign neg (if F.hasInf then F.infEnc else F.maxEnc)
  | .fin neg m e =>
    if m = 0 then F.sign neg 0
    else
      let q := F.extEnc mode neg m e
      if F.maxEnc < q then
        if F.hasInf && (mode = 0 || mode = 4 || mode = 5 || (mode = 3 && !neg) || (mode = 2 && neg)) then
          F.sign neg F.infEnc
        else F.sign neg F.maxEnc
      else if mode = 5 && q < 2 ^ F.mbits then F.sign neg 0
      else F.sign neg q

/-- The integer nearest a finite value under a mode (R81). -/
def roundInteger (mode : Nat) (neg : Bool) (m : Nat) (e : Int) : Int :=
  let q : Int := roundUnits mode neg m e 0
  if neg then -q else q

def sat (v lo hi : Int) : Int := if v < lo then lo else if hi < v then hi else v

/-- round to an integer format with the given bounds (R81). -/
def roundInt (mode : Nat) (lo hi : Int) (v : FVal) : Int :=
  match v with
  | .nan => 0
  | .inf neg => if neg then lo else hi
  | .fin neg m e => sat (roundInteger mode neg m e) lo hi

def FVal.isNan : FVal → Bool | .nan => true | _ => false
def FVal.isNeg : FVal → Bool | .nan => false | .inf n => n | .fin n _ _ => n
def FVal.isZero : FVal → Bool | .fin _ 0 _ => true | _ => false

def FVal.neg : FVal → FVal
  | .nan => .nan
  | .inf n => .inf (!n)
  | .fin n m e => .fin (!n) m e

def FVal.abs : FVal → FVal
  | .nan => .nan
  | .inf _ => .inf false
  | .fin _ m e => .fin false m e

/-- An integer as a value; its zero is +0 (R82). -/
def FVal.ofInt (v : Int) : FVal := .fin (v < 0) v.natAbs 0

/-- The exact product (R71, R82). -/
def FVal.mul : FVal → FVal → FVal
  | .nan, _ | _, .nan => .nan
  | .inf a, .inf b => .inf (a != b)
  | .inf a, .fin b m _ | .fin b m _, .inf a => if m = 0 then .nan else .inf (a != b)
  | .fin a m e, .fin b n f => .fin (a != b) (m * n) (e + f)

/-- The signed mantissa of a finite value in units of 2^u, for u at most its exponent. -/
def FVal.units (u : Int) : FVal → Int
  | .fin n m e => let x : Int := m * 2 ^ (e - u).toNat
                  if n then -x else x
  | _ => 0

def FVal.exp : FVal → Int | .fin _ _ e => e | _ => 0

/-- The exact sum of a list of terms, with the sign of an exact zero as R114 extends R82; `mode` matters for that
sign only. -/
def FVal.sum (mode : Nat) (ts : List FVal) : FVal :=
  if ts.any FVal.isNan then .nan
  else
    let ps := ts.contains (.inf false)
    let ns := ts.contains (.inf true)
    if ps && ns then .nan
    else if ps then .inf false
    else if ns then .inf true
    else
      let u := ts.foldl (fun a t => min a t.exp) 0
      let s := ts.foldl (fun a t => a + t.units u) (0 : Int)
      if s = 0 then
        if mode = 2 then .fin (!(ts.all (fun t => t.isZero && !t.isNeg))) 0 0
        else .fin (ts.all (fun t => t.isZero && t.isNeg)) 0 0
      else .fin (s < 0) s.natAbs u

def FVal.add (mode : Nat) (a b : FVal) : FVal := FVal.sum mode [a, b]

/-- Exact comparison of two values that are not NaN; both zeros are equal (R126). -/
def FVal.lt : FVal → FVal → Bool
  | .nan, _ | _, .nan => false
  | .inf a, .inf b => a && !b
  | .inf a, .fin .. => a
  | .fin .., .inf b => !b
  | .fin a m e, .fin b n f =>
    let u := min e f
    decide ((FVal.fin a m e).units u < (FVal.fin b n f).units u)

def FVal.eqv (a b : FVal) : Bool := !a.isNan && !b.isNan && !a.lt b && !b.lt a

/-- E8M0 scale times 2^k: the power of two it stands for, or none for NaN (R73). -/
def e8m0 (x : Nat) : Option Int := if x = 255 then none else some ((x : Int) - 127)

/-- v·2^k exactly (R74); NaN for no scale. -/
def FVal.scale (v : FVal) (k : Option Int) : FVal :=
  match k, v with
  | none, _ => .nan
  | some k, .fin n m e => .fin n m (e + k)
  | some _, w => w

/-- FMIN and FMAX of R83 on FP32 encodings. -/
def fminmax (isMax : Bool) (a b : Word) : Word :=
  let x := Fmt.fp32.decode false a.toNat
  let y := Fmt.fp32.decode false b.toNat
  match x.isNan, y.isNan with
  | true, true => 0x7FC00000
  | true, false => b
  | false, true => a
  | false, false =>
    -- −0 counts as less than +0
    let less := x.lt y || (x.isZero && y.isZero && x.isNeg && !y.isNeg)
    if less != isMax then a else if x.lt y || y.lt x || x.isNeg != y.isNeg then b else a

/-! ## DS8 (R76 to R78) -/

/-- The value of a DS8 byte. -/
def ds8Value (b : Nat) : Int :=
  let t1 : Int := 2 ^ (b / 16 % 8)
  let t2 : Int := 2 ^ (b % 8)
  (if b / 128 % 2 = 1 then -t1 else t1) + (if b / 8 % 2 = 1 then -t2 else t2)

/-- Encodings in the order of R77: k1, then k2, then s1. -/
def ds8Order : List Nat :=
  (List.range 8).flatMap fun k1 => (List.range 8).flatMap fun k2 => (List.range 2).flatMap fun s1 =>
    (List.range 2).map fun s2 => 128 * s1 + 16 * k1 + 8 * s2 + k2

/-- The canonical encoding of a representable value (R77). -/
def ds8Canon (v : Int) : Nat := (ds8Order.find? (fun b => ds8Value b = v)).getD 8

/-- The greatest representable value at most `v`, from −256 up. -/
def ds8Floor (v : Int) : Int :=
  ds8Order.foldl (fun a b => let x := ds8Value b
                             if x ≤ v && a < x then x else a) (-256)

/-- Rounding of a real value to DS8 (R78), as the canonical encoding. -/
def ds8Round (mode : Nat) (v : FVal) : Nat :=
  match v with
  | .nan => 8
  | .inf neg => if neg then 0xFF else 0x77
  | .fin neg m e =>
    let s := (-e).toNat
    -- v = n / 2^s
    let n : Int := FVal.units (min e 0) (.fin neg m e)
    let D : Int := 2 ^ s
    if 256 * D ≤ n then 0x77
    else if n ≤ -256 * D then 0xFF
    else
      let lo := ds8Floor (n / D)
      let hi := -(ds8Floor ((-n) / D))
      if lo * D = n then ds8Canon lo
      else
        let twice := 2 * n - (lo + hi) * D
        let pick : Int :=
          match mode with
          | 1 => if neg then hi else lo
          | 2 => lo
          | 3 => hi
          | _ =>
            if twice < 0 then lo
            else if 0 < twice then hi
            else if (mode = 4) = (lo.natAbs < hi.natAbs) then hi else lo
        ds8Canon pick

end Sys2Proof.Machine
end

