-- ==== Sys2Proof/Config.lean ====
section
/-! DEFINITION. What an implementation fixes and the values the spec leaves open. The open values are opaque: nothing
can be proved of them. The first argument is a plain counter of the state that each draw advances (log 5); a second one numbers the parts of one draw. -/

namespace Sys2Proof.Config

/-- Cycles beyond N(A) for which SYS.sleep lasts, taken modulo 65 (R180; log 6). -/
opaque sleepExtra : Nat → BitVec 7

/-- Deviation of the silicon's Shat from the reference in reference steps, before the bound of R198 is applied
(log 7). -/
opaque deviation : Nat → Nat → Int

/-- A byte decrypted under another key than the one it was written with (R453; log 8). -/
opaque decrypted : Nat → Nat → Byte

/-- A fresh random key (R453; log 10). -/
opaque freshKey : Nat → BitVec 512

/-- Results of the module's cryptography: digests, signatures, certificates, session secrets (log 10). -/
opaque crypto : Nat → Nat → BitVec 512

/-- Which value a read of data being overwritten gives, old or new (R61, R217; log 11). -/
opaque torn : Nat → Nat → Bool

/-- Cycles that the host takes to complete an ATS invalidation (R183; log 24). -/
opaque hostTime : Nat → BitVec 32

/-- What another module's memory answers to a read or an atomic through a Plagil link (R351; log 20). -/
opaque remote : Nat → Nat → BitVec 128

/-- What another module's memory answers to a read of the host-queue engine: cycle and address (R314; log 20). -/
opaque engineRemote : Nat → Nat → BitVec 512

/-- The byte a receive buffer holds after an aborted collective (R381; log 12). -/
opaque aborted : Nat → Nat → Byte

/-- Choices of the order in which a reduction combines ranks (R174; log 25). -/
opaque collOrder : Nat → Nat → Nat → Nat

/-- The number of the reed sensor that reports (R411; log 29). -/
opaque sensor : Nat → BitVec 7

/-- What a scrub or a read finds: 0 nothing, 1 a corrected error, from 2 on an error that is not corrected, in HBM, a unified store, an
accumulator store, a home slice, a sibling record, a directory entry, parity-protected logic, an L1 tag, a TLB; and the place (R421, R423;
log 29). -/
opaque scrub : Nat → BitVec 4
opaque scrubAt : Nat → BitVec 80

/-- Unit code of a report whose event belongs to no structure, less 1, modulo 10: sett and record number (R425; log 129). -/
opaque reportUnit : Nat → Nat → BitVec 4

/-- A converter's offset after trimming lies beyond its range (R433; log 29). -/
opaque drift : Nat → Bool

/-- Another module's sector that a GetS brings (R366; log 20). -/
opaque remoteSector : Nat → BitVec 512

/-- The host enables CXL.cache for the device, and the AtomicOp requester in Device Control 2 (R373, R374; log 117). -/
opaque cacheEnabled : Nat → Bool
opaque atomicEnabled : Nat → Bool

/-- The firmware's self-test sets the gate-timing bit of a sett's cores (R209, R452; log 116). -/
opaque gateTest : Nat → Bool

/-- What system software puts into the group tables of the setts: sett and entry; into the replica area tables: the entry, alike in every
sett, and each sett's base (R355, R379; log 61). -/
opaque groupTable : Nat → Nat → BitVec 128
opaque areaTable : Nat → BitVec 256
opaque areaBase : Nat → Nat → BitVec 21

/-- The sett that system software names as sequencer in place of one that is in reset; a value from 8 on names none (R357; log 61). -/
opaque newSequencer : Nat → BitVec 4

/-- A retrain of a Plagil link succeeds (R377; log 30). -/
opaque retrained : Nat → Bool

/-- The 512-bit SHAKE256 output over a string of bytes, given as its non-zero bytes and its length (R440; log 10). -/
opaque digest : List (Nat × Byte) → Nat → BitVec 512

/-- The Ed448 signature of a message under the private key of a public key (R439; log 10). -/
opaque signature : Nat → Nat → BitVec 912

/-- The module's Ed448 public key (R439, R447; log 10). -/
opaque identity : BitVec 456

/-- A die passes the checks of its firmware and of its peers at start-up (R448, R451; log 33). -/
opaque authentic : Nat → Nat → Bool

/-- A die's certificate chain, as a number (R447; log 10). -/
opaque certificate : Nat → Nat

/-- Physical clusters of every sett that were disabled at manufacture, one on each compute die (R1, R443; log 2). -/
def disabledClusters : List Nat := [16, 33]

end Sys2Proof.Config
end

