-- ==== Sys2Proof/Syntax.lean ====
section
/-! DEFINITION. The syntax of the Cudon's steps: ONE inductive with a constructor for every row of
spec/opcode_table.json. The first part are the instructions with an encoding (spec/02, R33 to R60): the
prefix word that stands before the base word (`px`, absent where R41 forbids one), then the variable fields of
the base word under the letters of the opcode table. The second part are the rows without an encoding: the
indivisible steps of the machine's engines (spec/95), with the numbers that name what they act on. -/

namespace Sys2Proof

/-- The variable fields of a prefix word (R37). The marker and the three low bits are fixed. -/
structure Pfx where
  /-- predicate 0 to 11 whose false lanes are masked; 12 is no mask -/
  mask : BitVec 4
  /-- rounding mode (R79) -/
  rnd : BitVec 3
  /-- fourth operand register -/
  c : BitVec 7
  /-- masked lanes write zero -/
  mz : Bool
  /-- consumer count of every register written -/
  cnt : BitVec 2
  /-- block rows - 1 -/
  rows : BitVec 2
  /-- block columns - 1 -/
  cols : BitVec 2
  /-- block on pending forms instead of deferring them -/
  strict : Bool
deriving DecidableEq, Repr

/-- Every row of the opcode table. -/
inductive Instr where
  /-- IADD (R106). Adds two registers, wrapping modulo 2^32. -/
  | iadd (px : Option Pfx) (d : BitVec 7) (a : BitVec 7) (b : BitVec 7) (g : BitVec 4)
  /-- ISUB (R106). Subtracts register b from register a, wrapping modulo 2^32. -/
  | isub (px : Option Pfx) (d : BitVec 7) (a : BitVec 7) (b : BitVec 7) (g : BitVec 4)
  /-- IADDI (R106). Adds a signed 7-bit immediate to a register. -/
  | iaddi (px : Option Pfx) (d : BitVec 7) (a : BitVec 7) (i : BitVec 7) (g : BitVec 4)
  /-- IMUL (R106). Writes the low 32 bits of the product of two registers. -/
  | imul (px : Option Pfx) (d : BitVec 7) (a : BitVec 7) (b : BitVec 7) (g : BitVec 4)
  /-- IMULH (R106). Writes the high 32 bits of the signed product of two registers. -/
  | imulh (px : Option Pfx) (d : BitVec 7) (a : BitVec 7) (b : BitVec 7) (g : BitVec 4)
  /-- IMULHN (R106). Writes the high 32 bits of the unsigned product of two registers. -/
  | imulhn (px : Option Pfx) (d : BitVec 7) (a : BitVec 7) (b : BitVec 7) (g : BitVec 4)
  /-- IMAD (R106). Multiplies a by b and adds c, wrapping modulo 2^32. -/
  | imad (px : Option Pfx) (d : BitVec 7) (a : BitVec 7) (b : BitVec 7) (g : BitVec 4)
  /-- IADD64 (R107). Adds two register pairs modulo 2^64. -/
  | iadd64 (px : Option Pfx) (d : BitVec 7) (a : BitVec 7) (b : BitVec 7) (g : BitVec 4)
  /-- ISUB64 (R107). Subtracts two register pairs modulo 2^64. -/
  | isub64 (px : Option Pfx) (d : BitVec 7) (a : BitVec 7) (b : BitVec 7) (g : BitVec 4)
  /-- IMULW (R107). Writes the signed 64-bit product of two registers to a pair. -/
  | imulw (px : Option Pfx) (d : BitVec 7) (a : BitVec 7) (b : BitVec 7) (g : BitVec 4)
  /-- NMULW (R107). Writes the unsigned 64-bit product of two registers to a pair. -/
  | nmulw (px : Option Pfx) (d : BitVec 7) (a : BitVec 7) (b : BitVec 7) (g : BitVec 4)
  /-- IMIN (R106). Writes the signed minimum of two registers. -/
  | imin (px : Option Pfx) (d : BitVec 7) (a : BitVec 7) (b : BitVec 7) (g : BitVec 4)
  /-- IMAX (R106). Writes the signed maximum of two registers. -/
  | imax (px : Option Pfx) (d : BitVec 7) (a : BitVec 7) (b : BitVec 7) (g : BitVec 4)
  /-- NMIN (R106). Writes the unsigned minimum of two registers. -/
  | nmin (px : Option Pfx) (d : BitVec 7) (a : BitVec 7) (b : BitVec 7) (g : BitVec 4)
  /-- NMAX (R106). Writes the unsigned maximum of two registers. -/
  | nmax (px : Option Pfx) (d : BitVec 7) (a : BitVec 7) (b : BitVec 7) (g : BitVec 4)
  /-- IMULI (R106). Multiplies a register by a signed 7-bit immediate. -/
  | imuli (px : Option Pfx) (d : BitVec 7) (a : BitVec 7) (i : BitVec 7) (g : BitVec 4)
  /-- IADDS (R106). Adds two registers with signed saturation. -/
  | iadds (px : Option Pfx) (d : BitVec 7) (a : BitVec 7) (b : BitVec 7) (g : BitVec 4)
  /-- NADDS (R106). Adds two registers with unsigned saturation. -/
  | nadds (px : Option Pfx) (d : BitVec 7) (a : BitVec 7) (b : BitVec 7) (g : BitVec 4)
  /-- ISUBS (R106). Subtracts two registers with signed saturation. -/
  | isubs (px : Option Pfx) (d : BitVec 7) (a : BitVec 7) (b : BitVec 7) (g : BitVec 4)
  /-- AND (R109). Writes the bitwise AND of two registers. -/
  | and (px : Option Pfx) (d : BitVec 7) (a : BitVec 7) (b : BitVec 7) (g : BitVec 4)
  /-- OR (R109). Writes the bitwise OR of two registers. -/
  | or (px : Option Pfx) (d : BitVec 7) (a : BitVec 7) (b : BitVec 7) (g : BitVec 4)
  /-- XOR (R109). Writes the bitwise XOR of two registers. -/
  | xor (px : Option Pfx) (d : BitVec 7) (a : BitVec 7) (b : BitVec 7) (g : BitVec 4)
  /-- ANDN (R109). Writes a AND NOT b. -/
  | andn (px : Option Pfx) (d : BitVec 7) (a : BitVec 7) (b : BitVec 7) (g : BitVec 4)
  /-- ANDI (R109). Writes the AND of a register and a signed immediate. -/
  | andi (px : Option Pfx) (d : BitVec 7) (a : BitVec 7) (i : BitVec 7) (g : BitVec 4)
  /-- ORI (R109). Writes the OR of a register and a signed immediate. -/
  | ori (px : Option Pfx) (d : BitVec 7) (a : BitVec 7) (i : BitVec 7) (g : BitVec 4)
  /-- XORI (R109). Writes the XOR of a register and a signed immediate. -/
  | xori (px : Option Pfx) (d : BitVec 7) (a : BitVec 7) (i : BitVec 7) (g : BitVec 4)
  /-- SHL (R109). Shifts left by a register amount, giving 0 for amounts of 32 or more. -/
  | shl (px : Option Pfx) (d : BitVec 7) (a : BitVec 7) (b : BitVec 7) (g : BitVec 4)
  /-- SHR (R109). Shifts right logically by a register amount. -/
  | shr (px : Option Pfx) (d : BitVec 7) (a : BitVec 7) (b : BitVec 7) (g : BitVec 4)
  /-- SAR (R109). Shifts right arithmetically by a register amount. -/
  | sar (px : Option Pfx) (d : BitVec 7) (a : BitVec 7) (b : BitVec 7) (g : BitVec 4)
  /-- SHLI (R109). Shifts left by an immediate from 0 to 31. -/
  | shli (px : Option Pfx) (d : BitVec 7) (a : BitVec 7) (k : BitVec 7) (g : BitVec 4)
  /-- SHRI (R109). Shifts right logically by an immediate from 0 to 31. -/
  | shri (px : Option Pfx) (d : BitVec 7) (a : BitVec 7) (k : BitVec 7) (g : BitVec 4)
  /-- SARI (R109). Shifts right arithmetically by an immediate from 0 to 31. -/
  | sari (px : Option Pfx) (d : BitVec 7) (a : BitVec 7) (k : BitVec 7) (g : BitVec 4)
  /-- FSHL (R111). Funnel-shifts left over the low w bits of a and the old d. -/
  | fshl (px : Option Pfx) (d : BitVec 7) (a : BitVec 7) (b : BitVec 7) (g : BitVec 4)
  /-- FSHR (R111). Funnel-shifts right over the low w bits of a and the old d. -/
  | fshr (px : Option Pfx) (d : BitVec 7) (a : BitVec 7) (b : BitVec 7) (g : BitVec 4)
  /-- BFXS (R112). Extracts a bit field and sign-extends it. -/
  | bfxs (px : Option Pfx) (d : BitVec 7) (a : BitVec 7) (b : BitVec 7) (g : BitVec 4)
  /-- BFXN (R112). Extracts a bit field and zero-extends it. -/
  | bfxn (px : Option Pfx) (d : BitVec 7) (a : BitVec 7) (b : BitVec 7) (g : BitVec 4)
  /-- BFI (R112). Inserts the low bits of a into a field of the old d. -/
  | bfi (px : Option Pfx) (d : BitVec 7) (a : BitVec 7) (b : BitVec 7) (g : BitVec 4)
  /-- POPC (R109). Counts the set bits of a register. -/
  | popc (px : Option Pfx) (d : BitVec 7) (a : BitVec 7) (g : BitVec 4)
  /-- CLZ (R109). Counts the leading zero bits of a register. -/
  | clz (px : Option Pfx) (d : BitVec 7) (a : BitVec 7) (g : BitVec 4)
  /-- BREV (R109). Reverses the bits of a register. -/
  | brev (px : Option Pfx) (d : BitVec 7) (a : BitVec 7) (g : BitVec 4)
  /-- BMIX (R113). Builds each result byte from a byte of A or of the old d under a mix control. -/
  | bmix (px : Option Pfx) (d : BitVec 7) (a : BitVec 7) (b : BitVec 7) (g : BitVec 4)
  /-- FADD (R115). Adds two FP32 values with one rounding. -/
  | fadd (px : Option Pfx) (d : BitVec 7) (a : BitVec 7) (b : BitVec 7) (g : BitVec 4)
  /-- FSUB (R115). Subtracts two FP32 values with one rounding. -/
  | fsub (px : Option Pfx) (d : BitVec 7) (a : BitVec 7) (b : BitVec 7) (g : BitVec 4)
  /-- FMUL (R115). Multiplies two FP32 values with one rounding. -/
  | fmul (px : Option Pfx) (d : BitVec 7) (a : BitVec 7) (b : BitVec 7) (g : BitVec 4)
  /-- FFMA (R115). Computes a times b plus c in FP32 with one rounding. -/
  | ffma (px : Option Pfx) (d : BitVec 7) (a : BitVec 7) (b : BitVec 7) (g : BitVec 4)
  /-- FMIN (R83). Writes the IEEE minimumNumber of two FP32 values. -/
  | fmin (px : Option Pfx) (d : BitVec 7) (a : BitVec 7) (b : BitVec 7) (g : BitVec 4)
  /-- FMAX (R83). Writes the IEEE maximumNumber of two FP32 values. -/
  | fmax (px : Option Pfx) (d : BitVec 7) (a : BitVec 7) (b : BitVec 7) (g : BitVec 4)
  /-- FSF_RCP (R116). Writes the correctly rounded reciprocal. -/
  | fsfRcp (px : Option Pfx) (d : BitVec 7) (a : BitVec 7) (g : BitVec 4)
  /-- FSF_RSQ (R116). Writes the correctly rounded reciprocal square root. -/
  | fsfRsq (px : Option Pfx) (d : BitVec 7) (a : BitVec 7) (g : BitVec 4)
  /-- FSF_SQRT (R116). Writes the correctly rounded square root. -/
  | fsfSqrt (px : Option Pfx) (d : BitVec 7) (a : BitVec 7) (g : BitVec 4)
  /-- FSF_EXP2 (R116). Writes the correctly rounded value of 2 to the power a. -/
  | fsfExp2 (px : Option Pfx) (d : BitVec 7) (a : BitVec 7) (g : BitVec 4)
  /-- FSF_LOG2 (R116). Writes the correctly rounded base-2 logarithm. -/
  | fsfLog2 (px : Option Pfx) (d : BitVec 7) (a : BitVec 7) (g : BitVec 4)
  /-- FSF_SINPI (R116). Writes the correctly rounded sine of pi times a. -/
  | fsfSinpi (px : Option Pfx) (d : BitVec 7) (a : BitVec 7) (g : BitVec 4)
  /-- FSF_COSPI (R116). Writes the correctly rounded cosine of pi times a. -/
  | fsfCospi (px : Option Pfx) (d : BitVec 7) (a : BitVec 7) (g : BitVec 4)
  /-- FSF_TANH (R116). Writes the correctly rounded hyperbolic tangent. -/
  | fsfTanh (px : Option Pfx) (d : BitVec 7) (a : BitVec 7) (g : BitVec 4)
  /-- FSF_ABS (R116). Clears the sign bit. -/
  | fsfAbs (px : Option Pfx) (d : BitVec 7) (a : BitVec 7) (g : BitVec 4)
  /-- FSF_NEG (R116). Inverts the sign bit. -/
  | fsfNeg (px : Option Pfx) (d : BitVec 7) (a : BitVec 7) (g : BitVec 4)
  /-- FSF_FRACT (R117). Writes a minus floor(a), rounded once. -/
  | fsfFract (px : Option Pfx) (d : BitVec 7) (a : BitVec 7) (g : BitVec 4)
  /-- FSF_FLOOR (R117). Writes the largest integral value not above a. -/
  | fsfFloor (px : Option Pfx) (d : BitVec 7) (a : BitVec 7) (g : BitVec 4)
  /-- FSF_CEIL (R117). Writes the smallest integral value not below a. -/
  | fsfCeil (px : Option Pfx) (d : BitVec 7) (a : BitVec 7) (g : BitVec 4)
  /-- FSF_TRUNC (R117). Removes the fraction of a, rounding toward zero. -/
  | fsfTrunc (px : Option Pfx) (d : BitVec 7) (a : BitVec 7) (g : BitVec 4)
  /-- FSF_RINT (R117). Rounds a to an integral value under the rounding mode. -/
  | fsfRint (px : Option Pfx) (d : BitVec 7) (a : BitVec 7) (g : BitVec 4)
  /-- BADD2 (R118). Adds packed BF16 pairs. -/
  | badd2 (px : Option Pfx) (d : BitVec 7) (a : BitVec 7) (b : BitVec 7) (g : BitVec 4)
  /-- BMUL2 (R118). Multiplies packed BF16 pairs. -/
  | bmul2 (px : Option Pfx) (d : BitVec 7) (a : BitVec 7) (b : BitVec 7) (g : BitVec 4)
  /-- BFMA2 (R118). Performs a fused multiply-add on packed BF16 pairs. -/
  | bfma2 (px : Option Pfx) (d : BitVec 7) (a : BitVec 7) (b : BitVec 7) (g : BitVec 4)
  /-- HADD2 (R118). Adds packed FP16 pairs. -/
  | hadd2 (px : Option Pfx) (d : BitVec 7) (a : BitVec 7) (b : BitVec 7) (g : BitVec 4)
  /-- HMUL2 (R118). Multiplies packed FP16 pairs. -/
  | hmul2 (px : Option Pfx) (d : BitVec 7) (a : BitVec 7) (b : BitVec 7) (g : BitVec 4)
  /-- HFMA2 (R118). Performs a fused multiply-add on packed FP16 pairs. -/
  | hfma2 (px : Option Pfx) (d : BitVec 7) (a : BitVec 7) (b : BitVec 7) (g : BitVec 4)
  /-- DOT4I (R119). Adds the dot product of four i8 pairs to c. -/
  | dot4i (px : Option Pfx) (d : BitVec 7) (a : BitVec 7) (b : BitVec 7) (g : BitVec 4)
  /-- DOT2B (R119). Adds the BF16 two-way dot product to an FP32 c with one rounding. -/
  | dot2b (px : Option Pfx) (d : BitVec 7) (a : BitVec 7) (b : BitVec 7) (g : BitVec 4)
  /-- DOT4E4 (R119). Adds the E4M3 four-way dot product to an FP32 c with one rounding. -/
  | dot4e4 (px : Option Pfx) (d : BitVec 7) (a : BitVec 7) (b : BitVec 7) (g : BitVec 4)
  /-- DOT4E5 (R119). Adds the E5M2 four-way dot product to an FP32 c with one rounding. -/
  | dot4e5 (px : Option Pfx) (d : BitVec 7) (a : BitVec 7) (b : BitVec 7) (g : BitVec 4)
  /-- CVT (R120). Converts one element between FP32 and the format named in the function field. -/
  | cvt (px : Option Pfx) (d : BitVec 7) (a : BitVec 7) (v : BitVec 1) (s : BitVec 2) (f : BitVec 4) (g : BitVec 4)
  /-- CVTMX (R122). Multiplies an FP32 value by its lane block's E8M0 scale. -/
  | cvtmx (px : Option Pfx) (d : BitVec 7) (a : BitVec 7) (s : BitVec 5) (e : BitVec 2) (g : BitVec 4)
  /-- QMX (R122). Divides an FP32 value by its lane block's E8M0 scale. -/
  | qmx (px : Option Pfx) (d : BitVec 7) (a : BitVec 7) (s : BitVec 5) (e : BitVec 2) (g : BitVec 4)
  /-- MXSCL_E4M3 (R121). Computes an E8M0 scale for E4M3 from an FP32 magnitude. -/
  | mxsclE4m3 (px : Option Pfx) (d : BitVec 7) (a : BitVec 7) (g : BitVec 4)
  /-- MXSCL_E5M2 (R121). Computes an E8M0 scale for E5M2. -/
  | mxsclE5m2 (px : Option Pfx) (d : BitVec 7) (a : BitVec 7) (g : BitVec 4)
  /-- MXSCL_E2M3 (R121). Computes an E8M0 scale for E2M3. -/
  | mxsclE2m3 (px : Option Pfx) (d : BitVec 7) (a : BitVec 7) (g : BitVec 4)
  /-- MXSCL_E3M2 (R121). Computes an E8M0 scale for E3M2. -/
  | mxsclE3m2 (px : Option Pfx) (d : BitVec 7) (a : BitVec 7) (g : BitVec 4)
  /-- MXSCL_E2M1 (R121). Computes an E8M0 scale for E2M1. -/
  | mxsclE2m1 (px : Option Pfx) (d : BitVec 7) (a : BitVec 7) (g : BitVec 4)
  /-- MXSCL_MXINT8 (R121). Computes an E8M0 scale for MXINT8. -/
  | mxsclMxint8 (px : Option Pfx) (d : BitVec 7) (a : BitVec 7) (g : BitVec 4)
  /-- DSMUL (R123). Multiplies B by a DS8 value using shift and add. -/
  | dsmul (px : Option Pfx) (d : BitVec 7) (a : BitVec 7) (b : BitVec 7) (g : BitVec 4)
  /-- DSCVT_FROMF32 (R124). Rounds FP32 to DS8 into byte i of d. -/
  | dscvtFromf32 (px : Option Pfx) (d : BitVec 7) (a : BitVec 7) (i : BitVec 2) (g : BitVec 4)
  /-- DSCVT_TOF32 (R124). Converts DS8 byte i to FP32 exactly. -/
  | dscvtTof32 (px : Option Pfx) (d : BitVec 7) (a : BitVec 7) (i : BitVec 2) (g : BitVec 4)
  /-- DSCVT_FROMI32 (R124). Rounds an i32 to DS8 into byte i of d. -/
  | dscvtFromi32 (px : Option Pfx) (d : BitVec 7) (a : BitVec 7) (i : BitVec 2) (g : BitVec 4)
  /-- DSCVT_TOI32 (R124). Converts DS8 byte i to i32. -/
  | dscvtToi32 (px : Option Pfx) (d : BitVec 7) (a : BitVec 7) (i : BitVec 2) (g : BitVec 4)
  /-- DSCVT_CANON (R124). Canonicalises every DS8 byte of a. -/
  | dscvtCanon (px : Option Pfx) (d : BitVec 7) (a : BitVec 7) (g : BitVec 4)
  /-- DSDOT4 (R119). Adds the dot product of four DS8 and four i8 elements to c. -/
  | dsdot4 (px : Option Pfx) (d : BitVec 7) (a : BitVec 7) (b : BitVec 7) (g : BitVec 4)
  /-- ICMP (R125). Compares two registers as signed and writes a predicate pair. -/
  | icmp (px : Option Pfx) (c : BitVec 3) (p : BitVec 3) (a : BitVec 7) (b : BitVec 7) (g : BitVec 4)
  /-- NCMP (R125). Compares two registers as unsigned and writes a predicate pair. -/
  | ncmp (px : Option Pfx) (c : BitVec 3) (p : BitVec 3) (a : BitVec 7) (b : BitVec 7) (g : BitVec 4)
  /-- FCMP (R126). Compares two FP32 values exactly and writes a predicate pair. -/
  | fcmp (px : Option Pfx) (c : BitVec 3) (p : BitVec 3) (a : BitVec 7) (b : BitVec 7) (g : BitVec 4)
  /-- ICMPI (R125). Compares a register with a signed immediate and writes a predicate pair. -/
  | icmpi (px : Option Pfx) (c : BitVec 3) (p : BitVec 3) (a : BitVec 7) (i : BitVec 7) (g : BitVec 4)
  /-- PAND (R128). Writes the AND of two predicates to a predicate pair. -/
  | pand (px : Option Pfx) (p : BitVec 3) (i : BitVec 4) (j : BitVec 4) (g : BitVec 4)
  /-- POR (R128). Writes the OR of two predicates to a predicate pair. -/
  | por (px : Option Pfx) (p : BitVec 3) (i : BitVec 4) (j : BitVec 4) (g : BitVec 4)
  /-- PXOR (R128). Writes the XOR of two predicates to a predicate pair. -/
  | pxor (px : Option Pfx) (p : BitVec 3) (i : BitVec 4) (j : BitVec 4) (g : BitVec 4)
  /-- SEL (R129). Selects a or b per lane under the predicate named in g. -/
  | sel (px : Option Pfx) (d : BitVec 7) (a : BitVec 7) (b : BitVec 7) (g : BitVec 4)
  /-- PTOX (R130). Packs the twelve predicates into a register. -/
  | ptox (px : Option Pfx) (d : BitVec 7) (g : BitVec 4)
  /-- XTOP (R130). Sets the twelve predicates from the bits of a register. -/
  | xtop (px : Option Pfx) (a : BitVec 7) (g : BitVec 4)
  /-- MOV (R131). Copies a register, or copies a pending form. -/
  | mov (px : Option Pfx) (d : BitVec 7) (a : BitVec 7) (g : BitVec 4)
  /-- MOVI (R131). Writes a sign-extended 14-bit immediate. -/
  | movi (px : Option Pfx) (d : BitVec 7) (i : BitVec 14) (g : BitVec 4)
  /-- LDI (R131). Writes the literal word that follows the instruction. -/
  | ldi (px : Option Pfx) (d : BitVec 7) (g : BitVec 4) (lit : Word)
  /-- LXOR (R133). Takes a from lane l XOR K. -/
  | lxor (px : Option Pfx) (d : BitVec 7) (a : BitVec 7) (k : BitVec 7) (g : BitVec 4)
  /-- LGET (R133). Takes a from the lane that b indexes. -/
  | lget (px : Option Pfx) (d : BitVec 7) (a : BitVec 7) (b : BitVec 7) (g : BitVec 4)
  /-- LROT (R133). Rotates a across all 32 lanes. -/
  | lrot (px : Option Pfx) (d : BitVec 7) (a : BitVec 7) (k : BitVec 7) (g : BitVec 4)
  /-- LROTS (R133). Rotates a within aligned segments of W lanes. -/
  | lrots (px : Option Pfx) (d : BitVec 7) (a : BitVec 7) (w : BitVec 2) (k : BitVec 5) (g : BitVec 4)
  /-- CONS_NONE (R134). Sets a pair true when the predicate is false in every active lane. -/
  | consNone (px : Option Pfx) (p : BitVec 3) (q : BitVec 4) (g : BitVec 4)
  /-- CONS_EVERY (R134). Sets a pair true when the predicate is true in every active lane. -/
  | consEvery (px : Option Pfx) (p : BitVec 3) (q : BitVec 4) (g : BitVec 4)
  /-- CONS_SAME (R134). Sets a pair true when every active lane holds the same value. -/
  | consSame (px : Option Pfx) (p : BitVec 3) (a : BitVec 7) (g : BitVec 4)
  /-- CONS_MASK (R134). Writes the mask of active lanes in which the predicate is true. -/
  | consMask (px : Option Pfx) (d : BitVec 7) (q : BitVec 4) (g : BitVec 4)
  /-- CONS_PEERS (R134). Writes the mask of active lanes that hold an equal value. -/
  | consPeers (px : Option Pfx) (d : BitVec 7) (a : BitVec 7) (g : BitVec 4)
  /-- CONS_COUNT (R134). Writes the number of active lanes in which the predicate is true. -/
  | consCount (px : Option Pfx) (d : BitVec 7) (q : BitVec 4) (g : BitVec 4)
  /-- CONS_FIRST (R134). Writes the lowest active lane in which the predicate is true. -/
  | consFirst (px : Option Pfx) (d : BitVec 7) (q : BitVec 4) (g : BitVec 4)
  /-- RDSYS (R135). Reads a system register into d. -/
  | rdsys (px : Option Pfx) (d : BitVec 7) (n : BitVec 7) (g : BitVec 4)
  /-- WRSYS (R135). Writes the OR of a over the active lanes to a system register, including the write-one-to-clear of STATUS. -/
  | wrsys (px : Option Pfx) (a : BitVec 7) (n : BitVec 7) (g : BitVec 4)
  /-- LD (R143). Loads per lane, deferring to a pending form where R89 allows. -/
  | ld (px : Option Pfx) (d : BitVec 7) (a : BitVec 7) (z : BitVec 3) (h : BitVec 2) (g : BitVec 4)
  /-- LDA (R146). Loads with acquire order at a scope. -/
  | lda (px : Option Pfx) (d : BitVec 7) (a : BitVec 7) (z : BitVec 3) (s : BitVec 3) (g : BitVec 4)
  /-- ST (R145). Stores per lane, through the egress queue when the data is pending. -/
  | st (px : Option Pfx) (z : BitVec 3) (h : BitVec 2) (a : BitVec 7) (b : BitVec 7) (g : BitVec 4)
  /-- STL (R146). Stores with release order at a scope. -/
  | stl (px : Option Pfx) (z : BitVec 3) (s : BitVec 3) (a : BitVec 7) (b : BitVec 7) (g : BitVec 4)
  /-- LDK (R147). Loads a cell's primary value and its sibling count at the home. -/
  | ldk (px : Option Pfx) (d : BitVec 7) (a : BitVec 7) (h : BitVec 2) (g : BitVec 4)
  /-- RCN (R149). Collapses every value of a cell into one value. -/
  | rcn (px : Option Pfx) (d : BitVec 7) (a : BitVec 7) (m : BitVec 4) (s : BitVec 3) (g : BitVec 4)
  /-- RCNX (R149). Collapses a cell as RCN does and also returns the number of values collapsed. -/
  | rcnx (px : Option Pfx) (d : BitVec 7) (a : BitVec 7) (m : BitVec 4) (s : BitVec 3) (g : BitVec 4)
  /-- CCTL_INV (R151). Discards the unregistered words of a line in L1. -/
  | cctlInv (px : Option Pfx) (a : BitVec 7) (g : BitVec 4)
  /-- CCTL_INVALL (R151). Discards every unregistered word of the L1 partition. -/
  | cctlInvall (px : Option Pfx) (g : BitVec 4)
  /-- CCTL_DEMOTE (R151). Moves a line to the least-recently-used position. -/
  | cctlDemote (px : Option Pfx) (a : BitVec 7) (g : BitVec 4)
  /-- CCTL_EVICT (R151). Performs a line's registered words at the home and removes the line. -/
  | cctlEvict (px : Option Pfx) (a : BitVec 7) (g : BitVec 4)
  /-- PREF (R152). Requests a line as a load with the given hint would allocate it. -/
  | pref (px : Option Pfx) (a : BitVec 7) (h : BitVec 2) (g : BitVec 4)
  /-- FENCE (R153). Orders the crew's accesses with acquire, release or acquire-release order. -/
  | fence (px : Option Pfx) (o : BitVec 2) (s : BitVec 3) (g : BitVec 4)
  /-- ATOM (R155). Performs a relaxed 32-bit atomic and returns the old value. -/
  | atom (px : Option Pfx) (d : BitVec 7) (a : BitVec 7) (o : BitVec 4) (s : BitVec 3) (g : BitVec 4)
  /-- ATOMR (R156). Performs an acquire-release 32-bit atomic and returns the old value. -/
  | atomr (px : Option Pfx) (d : BitVec 7) (a : BitVec 7) (o : BitVec 4) (s : BitVec 3) (g : BitVec 4)
  /-- RED (R155). Performs a relaxed 32-bit atomic that returns nothing. -/
  | red (px : Option Pfx) (d : BitVec 7) (a : BitVec 7) (o : BitVec 4) (s : BitVec 3) (g : BitVec 4)
  /-- ATOM64 (R155). Performs a relaxed 64-bit atomic. -/
  | atom64 (px : Option Pfx) (d : BitVec 7) (a : BitVec 7) (o : BitVec 4) (s : BitVec 3) (g : BitVec 4)
  /-- DQPUSH (R159). Pushes an entry onto the bottom of a hub deque. -/
  | dqpush (px : Option Pfx) (a : BitVec 7) (b : BitVec 7) (g : BitVec 4)
  /-- DQPOP (R159). Pops the newest entry of a hub deque. -/
  | dqpop (px : Option Pfx) (d : BitVec 7) (a : BitVec 7) (g : BitVec 4)
  /-- DQSTEAL (R159). Takes the oldest entry of a hub deque. -/
  | dqsteal (px : Option Pfx) (d : BitVec 7) (a : BitVec 7) (g : BitVec 4)
  /-- BINIT (R161). Initialises a barrier object's expectations and clears its counts. -/
  | binit (px : Option Pfx) (a : BitVec 7) (b : BitVec 7) (g : BitVec 4)
  /-- ARV (R161). Counts an arrival at a barrier, as a release unless relaxed. -/
  | arv (px : Option Pfx) (a : BitVec 7) (r : BitVec 1) (s : BitVec 3) (g : BitVec 4)
  /-- BEXP (R161). Raises a barrier's expected bytes. -/
  | bexp (px : Option Pfx) (a : BitVec 7) (b : BitVec 7) (g : BitVec 4)
  /-- WAITP (R164). Waits without a time limit for a barrier phase to end. -/
  | waitp (px : Option Pfx) (p : BitVec 3) (a : BitVec 7) (b : BitVec 7) (g : BitVec 4)
  /-- TRYW (R165). Waits for a barrier phase to end or for an absolute deadline to pass. -/
  | tryw (px : Option Pfx) (p : BitVec 3) (a : BitVec 7) (b : BitVec 7) (g : BitVec 4)
  /-- WAIT (R166). Waits until the crew's outstanding counters fall to the given values. -/
  | wait (px : Option Pfx) (l : BitVec 6) (s : BitVec 5) (c : BitVec 6) (t : BitVec 4) (g : BitVec 4)
  /-- COPY (R170). Reads copy descriptors and starts one copy per active lane. -/
  | copy (px : Option Pfx) (a : BitVec 7) (b : BitVec 7) (g : BitVec 4)
  /-- PUT (R172). Starts one kind-7 copy per lane into a peer window. -/
  | put (px : Option Pfx) (a : BitVec 7) (b : BitVec 7) (g : BitVec 4)
  /-- PUBL (R173). Publishes shadowed buffers by swapping their frames. -/
  | publ (px : Option Pfx) (a : BitVec 7) (g : BitVec 4)
  /-- COLL (R174). Starts a collective on the sett's collective engine and returns its handle. -/
  | coll (px : Option Pfx) (d : BitVec 7) (a : BitVec 7) (g : BitVec 4)
  /-- MLOAD (R222). Queues a scale-store load and weight rescale for a run of tile slots. -/
  | mload (px : Option Pfx) (a : BitVec 7) (g : BitVec 4)
  /-- AMODE_STORAGE (R220). Queues a switch of a run of tile slots to storage mode. -/
  | amodeStorage (px : Option Pfx) (a : BitVec 7) (g : BitVec 4)
  /-- AMODE_COMPUTE (R220). Queues a switch of a run of tile slots to compute mode. -/
  | amodeCompute (px : Option Pfx) (a : BitVec 7) (g : BitVec 4)
  /-- MMV (R227). Queues a run of input vectors through chains of resident tiles into accumulator rows. -/
  | mmv (px : Option Pfx) (a : BitVec 7) (g : BitVec 4)
  /-- MMG (R229). Queues a gathered list of vectors through the tiles, with scattered result rows. -/
  | mmg (px : Option Pfx) (a : BitVec 7) (g : BitVec 4)
  /-- ACC (R235). Queues zeroing, loading, storing or adding of accumulator rows. -/
  | acc (px : Option Pfx) (a : BitVec 7) (g : BitVec 4)
  /-- BRA (R175). Branches the active lanes to a PC-relative target. -/
  | bra (i : BitVec 21) (g : BitVec 4)
  /-- BRX (R175). Branches the active lanes to the address held in a register pair. -/
  | brx (a : BitVec 7) (g : BitVec 4)
  /-- CALL (R176). Writes the return address to x126:x127 and branches. -/
  | call (i : BitVec 21) (g : BitVec 4)
  /-- RET (R175). Branches to the address held in x126:x127. -/
  | ret (g : BitVec 4)
  /-- EXIT (R177). Ends the active threads. -/
  | exit (g : BitVec 4)
  /-- WIN (R178). Moves the crew's register window base by k rows. -/
  | win (px : Option Pfx) (i : BitVec 14) (g : BitVec 4)
  /-- WIN_ABS (R178). Sets the crew's register window base to k. -/
  | winAbs (px : Option Pfx) (i : BitVec 14) (g : BitVec 4)
  /-- LEASE_SPILL (R179). Opens a lease and moves registers to a neighbouring core or to the backing area. -/
  | leaseSpill (px : Option Pfx) (d : BitVec 7) (a : BitVec 7) (g : BitVec 4)
  /-- LEASE_FILL (R179). Restores a lease's registers and counts and ends the lease. -/
  | leaseFill (px : Option Pfx) (d : BitVec 7) (a : BitVec 7) (g : BitVec 4)
  /-- LEASE_DROP (R179). Ends a lease without restoring it. -/
  | leaseDrop (px : Option Pfx) (d : BitVec 7) (a : BitVec 7) (g : BitVec 4)
  /-- SYS_NOP (R180). Does nothing. -/
  | sysNop (px : Option Pfx) (g : BitVec 4)
  /-- SYS_TRAP (R180). Raises the program trap with a code for TRAPINFO. -/
  | sysTrap (px : Option Pfx) (a : BitVec 7) (g : BitVec 4)
  /-- SYS_TRET (R347). Leaves handler mode and restores the threads from the trap frame. -/
  | sysTret (px : Option Pfx) (g : BitVec 4)
  /-- SYS_BKPT (R180). Raises the breakpoint trap. -/
  | sysBkpt (px : Option Pfx) (g : BitVec 4)
  /-- SYS_YIELD (R180). Leaves the active set if a ready crew outside the set exists. -/
  | sysYield (px : Option Pfx) (g : BitVec 4)
  /-- SYS_CONV (R181). Marks a reconvergence point that executes as NOP. -/
  | sysConv (px : Option Pfx) (g : BitVec 4)
  /-- SYS_ELECT (R180). Sets a predicate pair true in the lowest active lane only. -/
  | sysElect (px : Option Pfx) (p : BitVec 3) (g : BitVec 4)
  /-- SYS_POST (R182). Posts one job card per active lane to a stage queue. -/
  | sysPost (px : Option Pfx) (a : BitVec 7) (g : BitVec 4)
  /-- SYS_TLBINV (R183). Invalidates a page's translations in the setts that the scope names. -/
  | sysTlbinv (px : Option Pfx) (s : BitVec 3) (a : BitVec 7) (g : BitVec 4)
  /-- SYS_RDTIME (R180). Reads TIMEHI:TIMELO in one step. -/
  | sysRdtime (px : Option Pfx) (d : BitVec 7) (g : BitVec 4)
  /-- SYS_SLEEP (R180). Makes the thread not ready for a number of cycles. -/
  | sysSleep (px : Option Pfx) (a : BitVec 7) (g : BitVec 4)
  /-- SYS_CABORT (R184). Aborts the current attempt of a collective. -/
  | sysCabort (px : Option Pfx) (a : BitVec 7) (g : BitVec 4)
  /-- SYS_MSTAT (R185). Reads the machine status value named by a selector. -/
  | sysMstat (px : Option Pfx) (d : BitVec 7) (a : BitVec 7) (g : BitVec 4)
  /-- EXT_IABS (R108). Writes the absolute value, modulo 2^32. -/
  | extIabs (px : Option Pfx) (d : BitVec 7) (a : BitVec 7) (g : BitVec 4)
  /-- EXT_INEG (R108). Writes the two's-complement negation. -/
  | extIneg (px : Option Pfx) (d : BitVec 7) (a : BitVec 7) (g : BitVec 4)
  /-- EXT_NOT (R108). Writes the bitwise complement. -/
  | extNot (px : Option Pfx) (d : BitVec 7) (a : BitVec 7) (g : BitVec 4)
  /-- EXT_SEXT8 (R108). Sign-extends the low 8 bits. -/
  | extSext8 (px : Option Pfx) (d : BitVec 7) (a : BitVec 7) (g : BitVec 4)
  /-- EXT_SEXT16 (R108). Sign-extends the low 16 bits. -/
  | extSext16 (px : Option Pfx) (d : BitVec 7) (a : BitVec 7) (g : BitVec 4)
  /-- EXT_ZEXT8 (R108). Zero-extends the low 8 bits. -/
  | extZext8 (px : Option Pfx) (d : BitVec 7) (a : BitVec 7) (g : BitVec 4)
  /-- EXT_ZEXT16 (R108). Zero-extends the low 16 bits. -/
  | extZext16 (px : Option Pfx) (d : BitVec 7) (a : BitVec 7) (g : BitVec 4)
  /-- EXT_FFS (R108). Writes the index of the lowest set bit, or 32. -/
  | extFfs (px : Option Pfx) (d : BitVec 7) (a : BitVec 7) (g : BitVec 4)
  /-- DEFERRED_TRAP_DELIVERY (R348). A crew takes the first entry of its deferred-trap list at an instruction boundary. -/
  | deferredTrapDelivery (crew : Nat)
  /-- PATH_PROMOTION (R21). A thread's wait counter reaches 64 and its path is promoted. -/
  | pathPromotion (crew : Nat) (lane : Nat)
  /-- ACTIVE_SET_RESIDENCY_EXPIRY (R18). A crew that has been in the active set for 4096 cycles leaves it when a ready non-active crew exists. -/
  | activeSetResidencyExpiry (core : Nat) (entry : Nat)
  /-- ACTIVE_SET_FILL (R18). A free active-set entry takes the ready non-active crew that became ready earliest. -/
  | activeSetFill (core : Nat) (entry : Nat)
  /-- LOAD_DATA_RETURN (R29). Load, atomic or reconcile data reaches the destination register and the loads counter decreases. -/
  | loadDataReturn (req : Nat)
  /-- SYMBOL_RESOLVE (R95). The last lane of a deferring load receives its data and every form over the symbol is written. -/
  | symbolResolve (crew : Nat) (sym : Nat)
  /-- STRIKE_CLEARANCE (R413). 256 cycles after issue, the core clears a held request so that it may be performed. -/
  | strikeClearance (req : Nat)
  /-- STORE_PERFORMED (R277). A store is performed at its point of coherence, registers its word, and leaves the stores counter. -/
  | storePerformed (req : Nat)
  /-- ATOMIC_STEP (R155). The place of R154 performs one indivisible atomic step on a word. -/
  | atomicStep (req : Nat) (lane : Nat)
  /-- RECONCILE_STEP (R294). The home collapses every value of a cell and writes the result with the reconciler's stamp. -/
  | reconcileStep (req : Nat) (lane : Nat)
  /-- DEQUE_STEP (R160). The cluster hub performs the deque steps that reach it in one cycle, in class order. -/
  | dequeStep (hub : Nat)
  /-- BARRIER_UPDATE (R257). The barrier unit applies an update and runs the completion test that may end a phase. -/
  | barrierUpdate (upd : Nat)
  /-- WAITER_RESUME (R259). A waiter whose phase has ended becomes ready and writes its predicate pair. -/
  | waiterResume (crew : Nat) (lane : Nat)
  /-- TRYW_DEADLINE (R165). A TRYW deadline passes and the thread resumes with false. -/
  | trywDeadline (crew : Nat) (lane : Nat)
  /-- SLEEP_EXPIRY (R180). A SYS.sleep time ends and the thread becomes ready. -/
  | sleepExpiry (crew : Nat) (lane : Nat)
  /-- IDLE_CLOCK_GATE (R261). After 2^12 idle-waiting cycles, the core's issue clocks are gated. -/
  | idleClockGate (core : Nat)
  /-- IDLE_POWER_GATE (R261). After 2^20 idle-waiting cycles, the crews leave the active set and the issue logic loses power. -/
  | idlePowerGate (core : Nat)
  /-- CORE_WAKE (R262). A gated core finishes waking and resumes issue. -/
  | coreWake (core : Nat)
  /-- DEADLINE_PRE_WAKE (R262). A power-gated core starts waking 1,700 cycles before its earliest deadline or sleep expiry. -/
  | deadlinePreWake (core : Nat)
  /-- LONG_WAIT_THRESHOLD (R431). The residency timer reaches the first threshold and a long-wait report is written. -/
  | longWaitThreshold (core : Nat)
  /-- HANG_SUSPECT_THRESHOLD (R431). The residency timer reaches the second threshold; the gang is reported and killed. -/
  | hangSuspectThreshold (core : Nat)
  /-- COPY_START (R170). The descriptor read ends and the copy starts; reachability is judged and scoreboard entries are made. -/
  | copyStart (copy : Nat)
  /-- COPY_PIECE_LAND (R266). A copy piece is performed at a target and credited to its barrier. -/
  | copyPieceLand (copy : Nat) (piece : Nat)
  /-- COPY_RETIRE (R267). A copy completes, fails or aborts; its scoreboard entries retire and the status bits are set. -/
  | copyRetire (copy : Nat)
  /-- PUT_PIECE_PERFORMED (R353). A put piece is performed at the owning home and added to the completion counters. -/
  | putPiecePerformed (copy : Nat) (piece : Nat)
  /-- COLLECTIVE_COMPLETE (R381). A collective completes and adds 1 to its done counter. -/
  | collectiveComplete (sett : Nat) (slot : Nat)
  /-- COLL_PACKET_RECEIVE (R380). A collective packet is accepted, dropped as stale, or held as newer. -/
  | collPacketReceive (sett : Nat) (group : Nat) (attempt : Nat) (seq : Nat) (rank : Nat) (data : Nat)
  /-- ABORT_TOKEN_RECEIVE (R381). An abort token ends the group's collectives of that attempt and advances the attempt. -/
  | abortTokenReceive (sett : Nat) (group : Nat) (attempt : Nat)
  /-- POST_BUFFER_DRAIN (R182). A card held in the post buffer is written to its queue once the queue has room. -/
  | postBufferDrain (core : Nat)
  /-- MULTICAST_ENQUEUE (R215). A multicast tile operation enters another target core's sequencer queue 16 cycles after issue. -/
  | multicastEnqueue (core : Nat) (op : Nat)
  /-- SEQ_BLOCK_READ (R217). The sequencer finishes reading a queued operation's parameter block and runs its checks. -/
  | seqBlockRead (core : Nat) (op : Nat)
  /-- SEQ_START (R215). The sequencer starts the oldest queued operation that meets the start conditions. -/
  | seqStart (core : Nat)
  /-- AMODE_SWITCH (R220). An AMODE's phase and copy conditions are met, it takes a running place and switches its slots. -/
  | amodeSwitch (core : Nat) (op : Nat)
  /-- AMODE_STORAGE_ENTRY (R220). 16 cycles after a compute-to-storage switch, the slot enters storage mode. -/
  | amodeStorageEntry (block : Nat) (slot : Nat)
  /-- COLUMN_SUM_DONE (R220). The 256-cycle column-sum pass ends and the AMODE retires. -/
  | columnSumDone (core : Nat) (op : Nat)
  /-- MLOAD_SLOT_DONE (R222). MLOAD finishes loading and rescaling one slot. -/
  | mloadSlotDone (core : Nat) (op : Nat)
  /-- MMV_FETCH_DONE (R230). One vector's inputs and scales are in the input buffer. -/
  | mmvFetchDone (core : Nat) (op : Nat)
  /-- MMV_HIGH_PLANES_DONE (R205). Planes 7 to 4 are converted and the gate decides, for each output, whether to skip. -/
  | mmvHighPlanesDone (core : Nat) (op : Nat)
  /-- MMV_LOW_PLANES_DONE (R230). Planes 3 to 0 are converted for the vector. -/
  | mmvLowPlanesDone (core : Nat) (op : Nat)
  /-- MMV_SUM_DONE (R204). Scaling and chain accumulation of a vector end. -/
  | mmvSumDone (core : Nat) (op : Nat)
  /-- ROW_COMMIT (R231). One accumulator row is written and done advances in the same cycle. -/
  | rowCommit (core : Nat) (op : Nat)
  /-- ACC_ROW_DONE (R235). An ACC finishes one row and commits it. -/
  | accRowDone (core : Nat) (op : Nat)
  /-- SEQ_OP_RETIRE (R214). A tile operation retires and the issuer's tile-operations counter decreases. -/
  | seqOpRetire (core : Nat) (op : Nat)
  /-- SEQ_STOP_REQUEST (R232). A sequencer operation is stopped between commits and saved. -/
  | seqStopRequest (core : Nat) (op : Nat)
  /-- LEASE_PLACED (R251). A SPILL's data is placed at the lender or in the backing area. -/
  | leasePlaced (crew : Nat) (lease : Nat)
  /-- LEASE_FILL_DATA (R251). A FILL's data arrives and the registers leave the in-flight state. -/
  | leaseFillData (crew : Nat) (lease : Nat)
  /-- LEASE_REVOKE (R253). A lender revokes a lease and writes it to the backing area. -/
  | leaseRevoke (crew : Nat) (lease : Nat)
  /-- TRANSLATION_WALK_DONE (R338). A page walk completes and fills the TLBs or finds a fault. -/
  | translationWalkDone (walk : Nat)
  /-- FAULT_SERVICE_CARD_POST (R343). The fault unit posts the service card of the oldest entry with pst = 0 when the service queue has room. -/
  | faultServiceCardPost (sett : Nat)
  /-- FAULT_RES_STORE (R342). A store to a fault entry's res word is accepted as retry or fail, or is ignored. -/
  | faultResStore (sett : Nat) (entry : Nat) (value : Nat)
  /-- FAULT_RETRY_WALK_DONE (R343). A retry walk installs the translation and replays the waiters, or reopens the entry. -/
  | faultRetryWalkDone (sett : Nat) (entry : Nat)
  /-- TLBINV_APPLY (R183). A named sett applies a TLB invalidation and acknowledges it once the affected accesses are performed. -/
  | tlbinvApply (inv : Nat) (sett : Nat)
  /-- TLBINV_ACK (R183). An acknowledgement of a TLB invalidation reaches the issuer. -/
  | tlbinvAck (inv : Nat) (sett : Nat)
  /-- GETS (R365). The home handles a GetS from a sharer core. -/
  | gets (sett : Nat) (sector : Nat) (core : Nat)
  /-- EVICT (R365). The home handles an eviction notice. -/
  | evict (sett : Nat) (sector : Nat) (core : Nat)
  /-- EVACK (R366). A sharer core receives EvAck for a sector. -/
  | evack (core : Nat) (sector : Nat)
  /-- DATA (R366). A sharer core receives a sector's data. -/
  | data (core : Nat) (sector : Nat)
  /-- WR (R365). The home handles a write to a directory line. -/
  | wr (sett : Nat) (req : Nat)
  /-- INV (R364). A fabric port or link agent applies an Inv to the named L1s and returns InvAck. -/
  | inv (node : Nat) (sector : Nat) (collector : Nat)
  /-- INVACK (R368). The ack collector counts an InvAck and reports completion when it reaches n. -/
  | invack (sett : Nat) (collector : Nat)
  /-- OWN (R365). The home handles an ownership request. -/
  | own (sett : Nat) (sector : Nat) (node : Nat)
  /-- FWD_GETS (R367). An owner handles a forwarded read. -/
  | fwdGets (node : Nat) (sector : Nat) (core : Nat)
  /-- FWD_WR (R367). An owner handles a forwarded write. -/
  | fwdWr (node : Nat) (req : Nat)
  /-- FWD_OWN (R367). An owner handles a forwarded ownership request. -/
  | fwdOwn (node : Nat) (sector : Nat) (asker : Nat)
  /-- WB (R365). The home handles a write-back from an owner. -/
  | wb (sett : Nat) (sector : Nat) (node : Nat) (data : Nat)
  /-- WBACK (R367). An owner receives a write-back acknowledgement. -/
  | wback (node : Nat) (sector : Nat)
  /-- NACK (R365). The home handles a Nack and performs the returned write. -/
  | nack (sett : Nat) (req : Nat)
  /-- EXPORT_REVOKE (R352). An export set to revoking invalidates its sharers, marks importers stale and frees the entry. -/
  | exportRevoke (sett : Nat) (entry : Nat)
  /-- REPLICA_WRITE (R356). The sequencer sett numbers a replicated write and multicasts the update. -/
  | replicaWrite (sett : Nat) (area : Nat) (req : Nat)
  /-- REPLICA_UPDATE (R356). A member applies replica updates in ascending number. -/
  | replicaUpdate (sett : Nat) (area : Nat) (number : Nat)
  /-- HOST_ATOMIC_CAS_RESPONSE (R374). A CAS response in the host-atomic loop ends the atomic or retries it. -/
  | hostAtomicCasResponse (req : Nat) (value : Nat)
  /-- HOST_SNOOP (R374). A host snoop takes a line that the fabric port owns. -/
  | hostSnoop (sett : Nat) (line : Nat)
  /-- HOST_MEM_REQUEST (R375). A host CXL.mem request is handled as the owner messages of the directory. -/
  | hostMemRequest (sett : Nat) (kind : Nat) (address : Nat) (data : Nat)
  /-- QDB_DOORBELL (R313). A host write to a queue doorbell sets the tail, or sets err on a bad value. -/
  | qdbDoorbell (sett : Nat) (queue : Nat) (value : Nat)
  /-- RETRYCNT_CLEAR (R371). Writing one to RETRYCNT clears it. -/
  | retrycntClear (sett : Nat) (value : Nat)
  /-- REGISTER_WRITE (R371). A host write to a BAR0 register without behaviour of its own. -/
  | registerWrite (sett : Nat) (offset : Nat) (value : Nat)
  /-- SETBASE (R372). Sets a base or size selector during start-up. -/
  | setbase (sett : Nat)
  /-- REFRESH (R372). Drops the engine's cached copies of a region control block and its subtree. -/
  | refresh (sett : Nat)
  /-- QSTATUS (R372). Returns a queue's error code, err and en. -/
  | qstatus (sett : Nat)
  /-- QRESUME (R372). Clears a queue's error so that it starts cards again. -/
  | qresume (sett : Nat)
  /-- IMPORT (R351). Fills a window entry from a handle, or refuses it. -/
  | import (sett : Nat)
  /-- UNIMPORT (R372). Stops translating through a window. -/
  | unimport (sett : Nat)
  /-- UNIMPORT_COMPLETE (R372). The window's last translated access is performed and the window becomes free. -/
  | unimportComplete (sett : Nat) (window : Nat)
  /-- HIBERNATE (R435). Accepts a HIBERNATE, stops intake and starts the quiesce. -/
  | hibernate (sett : Nat)
  /-- QUIESCE_PREEMPT_DONE (R435). The last swap-out of the quiesce has freed its arrays. -/
  | quiescePreemptDone
  /-- QUIESCE_COLLECTIVE_TIMEOUT (R435). At A + 2^24 cycles, unfinished collectives are aborted. -/
  | quiesceCollectiveTimeout
  /-- QUIESCE_OUTWARD_DONE (R435). Link evictions, port requests, replica buffers and ack collectors have drained. -/
  | quiesceOutwardDone
  /-- QUIESCE_RECALL_DONE (R435). Owned lines are recalled, sharers invalidated and L1 words performed. -/
  | quiesceRecallDone
  /-- QUIESCE_FREEZE (R435). In cycle F the home slices stop accepting requests and write dirty lines to HBM. -/
  | quiesceFreeze
  /-- HIBERNATE_IMAGE_DONE (R438). The image and its manifest are written and the setts enter suspension. -/
  | hibernateImageDone
  /-- WAKE (R445). Checks and loads a hibernation image, remaps clusters and returns to service. -/
  | wake (sett : Nat)
  /-- DEPENDENCE_POLL (R318). Every 4,096 fabric cycles the engine re-reads dependence counters. -/
  | dependencePoll (sett : Nat)
  /-- CARD_HEAD_CHECK (R316). A card reaches its queue head and is checked with its kernel descriptor. -/
  | cardHeadCheck (sett : Nat) (queue : Nat)
  /-- CARD_START (R318). A head card's dependences are met and it starts, stepping the generation for a GEN barrier. -/
  | cardStart (sett : Nat) (queue : Nat)
  /-- GANG_PLACEMENT (R326). Every 8 fabric cycles the engine places one gang, new or swapped in. -/
  | gangPlacement (sett : Nat)
  /-- PRIORITY_AGEING (R326). A waiting card's effective priority rises each 2^20 cycles. -/
  | priorityAgeing (sett : Nat)
  /-- SWAP_OUT_DECISION (R328). A candidate that has waited 2^16 cycles without room triggers a swap-out of a lower-priority gang. -/
  | swapOutDecision (sett : Nat)
  /-- CLUSTER_REALLOCATION (R323). Every 65,536 cycles clusters are released, granted or marked leaving. -/
  | clusterReallocation (sett : Nat)
  /-- CREW_END (R177). A crew whose threads have exited and whose counters reach 0 ends. -/
  | crewEnd (crew : Nat)
  /-- SWAP_OUT_STOP (R383). The engine sends a stop request and the gang's crews and sequencers stop. -/
  | swapOutStop (sett : Nat) (record : Nat)
  /-- SWAP_OUT_DRAIN_DONE (R384). The work marked drained has ended. -/
  | swapOutDrainDone (sett : Nat) (record : Nat)
  /-- SWAP_OUT_CLOSE_DONE (R383). Every strike window of the gang has closed. -/
  | swapOutCloseDone (sett : Nat) (record : Nat)
  /-- SWAP_OUT_IMAGE_WRITTEN (R387). The context image has been written. -/
  | swapOutImageWritten (sett : Nat) (record : Nat)
  /-- SWAP_OUT_FREE (R383). The gang's arrays and places are returned and its record is marked swapped. -/
  | swapOutFree (sett : Nat) (record : Nat)
  /-- REED_REPORT (R411). A reed sensor reports a strike and starts a rollback event. -/
  | reedReport (core : Nat)
  /-- ROLLBACK_RESTORE_DONE (R416). Restoration from the journal ends and the cores resume issue. -/
  | rollbackRestoreDone (core : Nat)
  /-- RECOVERY_SPAN_END (R420). Restored cores have issued for 256 cycles and the recovery span ends. -/
  | recoverySpanEnd (core : Nat)
  /-- RELAUNCH_CATCHUP_END (R428). A relaunched gang has run for its catch-up cycles and leaves recovery. -/
  | relaunchCatchupEnd (sett : Nat) (record : Nat)
  /-- PATROL_SCRUB (R423). Patrol scrub reads and corrects or poisons stored words. -/
  | patrolScrub (sett : Nat)
  /-- CONVERTER_CALIBRATION (R432). An array's converters are calibrated between steps, or the array is retired. -/
  | converterCalibration (core : Nat) (array : Nat)
  /-- CALIBRATION_PAUSE (R432). An array busy for 2^37 cycles has a 512-cycle pause inserted. -/
  | calibrationPause (core : Nat) (array : Nat)
  /-- FLIT_RECEIVE (R377). A Plagil flit is received, delivered, or discarded with a NAK. -/
  | flitReceive (link : Nat) (sequence : Nat) (intact : Nat) (payload : Nat)
  /-- NAK_RECEIVE (R377). A NAK makes the sender replay, or after 16 in a row retrain the link. -/
  | nakReceive (link : Nat) (sequence : Nat)
  /-- LINK_RETRAIN_DONE (R377). A retrain ends, resuming replay or taking the link down. -/
  | linkRetrainDone (link : Nat) (success : Nat)
  /-- LINK_BRINGUP (R378). A link trains, authenticates and exchanges module numbers. -/
  | linkBringup (link : Nat) (peer : Nat) (success : Nat)
  /-- LINK_KEY_UPDATE (R450). Every 2^32 flits the link traffic keys are replaced. -/
  | linkKeyUpdate (link : Nat)
  /-- POWER_ON (R452). Power-on runs the start-up steps. -/
  | powerOn
  /-- SETT_RESET (R13). A sett is reset and enters start-up. -/
  | settReset (sett : Nat)
  /-- GET_VERSION (R449). SPDM GET_VERSION request handled by the responder. -/
  | getVersion (session : Nat)
  /-- GET_CAPABILITIES (R449). SPDM GET_CAPABILITIES request. -/
  | getCapabilities (session : Nat)
  /-- NEGOTIATE_ALGORITHMS (R449). SPDM NEGOTIATE_ALGORITHMS request. -/
  | negotiateAlgorithms (session : Nat)
  /-- GET_DIGESTS (R449). SPDM GET_DIGESTS request. -/
  | getDigests (session : Nat)
  /-- GET_CERTIFICATE (R447). SPDM GET_CERTIFICATE request returns a die's certificate chain. -/
  | getCertificate (session : Nat) (die : Nat)
  /-- CHALLENGE (R449). SPDM CHALLENGE request. -/
  | challenge (session : Nat)
  /-- GET_MEASUREMENTS (R448). SPDM GET_MEASUREMENTS request returns the firmware digests. -/
  | getMeasurements (session : Nat)
  /-- KEY_EXCHANGE (R450). SPDM KEY_EXCHANGE starts a session with an ephemeral P-384 exchange. -/
  | keyExchange (session : Nat)
  /-- FINISH (R450). SPDM FINISH completes the session and derives keys. -/
  | finish (session : Nat)
  /-- KEY_UPDATE (R450). SPDM KEY_UPDATE replaces the session keys. -/
  | keyUpdate (session : Nat)
  /-- END_SESSION (R449). SPDM END_SESSION ends a session. -/
  | endSession (session : Nat)
  /-- KEY_LOAD (R454). A vendor-defined request loads a key slot. -/
  | keyLoad (sett : Nat) (slot : Nat) (key : Nat)
  /-- KEY_CLEAR (R455). A vendor-defined request writes back key lines, empties the slot and responds. -/
  | keyClear (sett : Nat) (slot : Nat)
  /-- FILTER_ENTRY_WRITE (R456). A host configuration write changes an outbound filter entry. -/
  | filterEntryWrite (sett : Nat) (entry : Nat) (base : Nat) (limit : Nat)
  /-- DVSEC_READ (R457). A host read of the DVSEC completes after every access checked under the earlier filter values. -/
  | dvsecRead (sett : Nat) (offset : Nat)
  /-- RAIL_OVERCURRENT (R458). A rail above its fused limit for 1 µs halves the die's clock. -/
  | railOvercurrent (die : Nat) (rail : Nat)
  /-- CLOCK_RECOVER (R458). A rail below 90 % of its limit for 10 µs restores the clock. -/
  | clockRecover (die : Nat) (rail : Nat)
  /-- THERMAL_TRIP (R459). Over-temperature for 1 ms removes the rails and latches the trip. -/
  | thermalTrip
  /-- SUPPLY_UNDERVOLTAGE (R459). Input below 44 V locks the module out. -/
  | supplyUndervoltage
  /-- ILLEGAL_INSTRUCTION (R60). An instruction word with major 0x00, an unlisted function code, a reserved DSCVT op or non-zero function bits, or a prefix followed by a prefix raises the precise illegal-instruction trap. -/
  | illegalInstruction (info : Nat)
  /-- UNKNOWN_OP (R372). A command record with a reserved op is completed with status 1, CMDHEAD advances and vector 0 is raised. -/
  | unknownOp (sett : Nat)
  /-- SWAP_IN_RESTORE_DONE (R391). A swapped-in block's section load and any column-sum pass end, and its sequencer operations, re-issued loads and crews resume. -/
  | swapInRestoreDone (block : Nat)
  /-- HOST_LINK_DOWN (R421). The host link suffers an uncorrected error and goes down. -/
  | hostLinkDown
deriving DecidableEq, Repr

end Sys2Proof
end

