-- ==== Sys2Proof/Machine/Legal.lean ====
section
/-! DEFINITION. What the encoding of an instruction says about it before anything is read: its issue class (R30),
the register fields it reads and writes (R50, R104), the prefix fields it accepts (R40), and the illegal encodings
of R60. The format assignment table of R50 stands here once, as `Instr.info`. -/

namespace Sys2Proof.Machine

/-- The issue classes of R30; `engine` marks the rows of the opcode table that are no instruction. -/
inductive IssueClass where
  | integer | multiply | wide | floating | packed | dot | special | convert | predicate | cross | memory
  | control | sync | single | engine
deriving DecidableEq, Repr

/-- What R50 and R40 say of one instruction. A register operand is (window register, width in registers). -/
structure Info where
  /-- guard field (R35); 12 where the row has none -/
  g : BitVec 4 := 12
  px : Option Pfx := none
  /-- the row has an encoding -/
  enc : Bool := true
  cls : IssueClass
  /-- source operand fields; the accumulator c is added by `Info.srcList` -/
  srcs : List (Nat × Nat) := []
  dst : Option (Nat × Nat) := none
  /-- scale register of the RS format (R85) -/
  scale : Option Nat := none
  /-- destination predicate pair (R34) -/
  pdst : Option Nat := none
  /-- every predicate is written (XTOP) -/
  pall : Bool := false
  /-- predicates read besides guard and mask -/
  psrc : List Nat := []
  accRnd : Bool := false
  accC : Bool := false
  accBlk : Bool := false
  /-- further fields that must be a multiple of a width (R44) -/
  even : List (Nat × Nat) := []
  /-- reasons of R60 that the base word's own fields give, apart from pairs and quads -/
  bad : List Nat := []
deriving DecidableEq, Repr

/-- Reason 0x04 of R60, where the condition holds. -/
def b4 (c : Bool) : List Nat := if c then [4] else []

/-- Registers that a memory access of size field `z` fills (R50, R51). -/
def sizeRegs (z : BitVec 3) : Nat := if z = 5 then 2 else if z = 6 then 4 else 1

/-- Sizes that ST and STL have (R51). -/
def storeSize (z : BitVec 3) : Bool := z = 0 || z = 2 || z = 4 || z = 5 || z = 6

/-- Width in bits of the CVT format `f` (R57). -/
def cvtBits (f : BitVec 4) : Nat :=
  match f.toNat with
  | 0 | 4 => 8
  | 1 | 5 => 16
  | 2 | 6 | 8 => 32
  | 3 | 7 => 64
  | 9 | 10 => 16
  | _ => 8

/-- The combinations of CVT's function field that R57 allows. -/
def cvtLegal (_v : BitVec 1) (s : BitVec 2) (f : BitVec 4) : Bool :=
  f != 8 && !(s != 0 && 32 ≤ cvtBits f) && !(1 < s.toNat && cvtBits f = 16)

/-- CVT's register sources (R57, R104): the pair a for a 64-bit source, the old d for a narrow destination. -/
def cvtSrcs (v : BitVec 1) (f : BitVec 4) (d a : BitVec 7) : List (Nat × Nat) :=
  if v = 1 then [(a.toNat, if cvtBits f = 64 then 2 else 1)]
  else (a.toNat, 1) :: (if cvtBits f < 32 then [(d.toNat, 1)] else [])

/-- CVT's destination (R57). -/
def cvtDst (v : BitVec 1) (f : BitVec 4) (d : BitVec 7) : Nat × Nat :=
  (d.toNat, if v = 0 && cvtBits f = 64 then 2 else 1)

/-- The largest scale byte number q that CVTMX and QMX use (R86, R122). -/
def scaleTop (px : Option Pfx) (sel : BitVec 2) : Nat :=
  let n := match px with
    | none => 1
    | some p => (p.rows.toNat + 1) * (p.cols.toNat + 1)
  4 * (n - 1) + 3 + 32 * sel.toNat

/-- Segment width of LROTS (R50). -/
def segWidth (w : BitVec 2) : Nat := 4 <<< w.toNat

/-- The system registers that WRSYS may write (R59); those of the trap only in a handler (R138). -/
def sysWritable (n : BitVec 7) : Bool := n = 5 || n = 9 || n = 10 || n = 11 || n = 12

/-- RCN and RCNX take scope .dev or .pkg only (R53). -/
def reconcileScope (s : BitVec 3) : Bool := s = 2 || s = 3

/-- RCN and RCNX read d in the modes PICK and SET (R53). -/
def rcnSrcs (m : BitVec 4) (d : BitVec 7) : List (Nat × Nat) :=
  if m = 7 || m = 8 then [(d.toNat, 1)] else []

/-- Registers of an atomic's operand d: twice as many for CAS (R50, R52). -/
def casRegs (o : BitVec 4) (w : Nat) : Nat := if o = 9 then 2 * w else w

/-- CAS of ATOM and ATOMR takes d as a pair (R52). -/
def casEven (o : BitVec 4) (d : BitVec 7) : List (Nat × Nat) := if o = 9 then [(d.toNat, 2)] else []

/-- The operations RED has (R52). -/
def redOp (o : BitVec 4) : Bool := o.toNat ≤ 14 && o != 8 && o != 9

/-- The format assignment of R50, the acceptance of R40 and the classes of R30, row by row. A q above 127 (R86) is a fault of the base
word (log 122). -/
def info (i : Instr) : Info :=
  match i with
  | .iadd px d a b g => { g := g, px := px, cls := .integer, srcs := [(a.toNat, 1), (b.toNat, 1)], dst := some (d.toNat, 1), accBlk := true }
  | .isub px d a b g => { g := g, px := px, cls := .integer, srcs := [(a.toNat, 1), (b.toNat, 1)], dst := some (d.toNat, 1), accBlk := true }
  | .iaddi px d a _ g => { g := g, px := px, cls := .integer, srcs := [(a.toNat, 1)], dst := some (d.toNat, 1), accBlk := true }
  | .imul px d a b g => { g := g, px := px, cls := .multiply, srcs := [(a.toNat, 1), (b.toNat, 1)], dst := some (d.toNat, 1), accBlk := true }
  | .imulh px d a b g => { g := g, px := px, cls := .multiply, srcs := [(a.toNat, 1), (b.toNat, 1)], dst := some (d.toNat, 1), accBlk := true }
  | .imulhn px d a b g => { g := g, px := px, cls := .multiply, srcs := [(a.toNat, 1), (b.toNat, 1)], dst := some (d.toNat, 1), accBlk := true }
  | .imad px d a b g => { g := g, px := px, cls := .multiply, srcs := [(a.toNat, 1), (b.toNat, 1)], dst := some (d.toNat, 1), accBlk := true, accC := true }
  | .iadd64 px d a b g => { g := g, px := px, cls := .wide, srcs := [(a.toNat, 2), (b.toNat, 2)], dst := some (d.toNat, 2), accBlk := true }
  | .isub64 px d a b g => { g := g, px := px, cls := .wide, srcs := [(a.toNat, 2), (b.toNat, 2)], dst := some (d.toNat, 2), accBlk := true }
  | .imulw px d a b g => { g := g, px := px, cls := .multiply, srcs := [(a.toNat, 1), (b.toNat, 1)], dst := some (d.toNat, 2), accBlk := true }
  | .nmulw px d a b g => { g := g, px := px, cls := .multiply, srcs := [(a.toNat, 1), (b.toNat, 1)], dst := some (d.toNat, 2), accBlk := true }
  | .imin px d a b g => { g := g, px := px, cls := .integer, srcs := [(a.toNat, 1), (b.toNat, 1)], dst := some (d.toNat, 1), accBlk := true }
  | .imax px d a b g => { g := g, px := px, cls := .integer, srcs := [(a.toNat, 1), (b.toNat, 1)], dst := some (d.toNat, 1), accBlk := true }
  | .nmin px d a b g => { g := g, px := px, cls := .integer, srcs := [(a.toNat, 1), (b.toNat, 1)], dst := some (d.toNat, 1), accBlk := true }
  | .nmax px d a b g => { g := g, px := px, cls := .integer, srcs := [(a.toNat, 1), (b.toNat, 1)], dst := some (d.toNat, 1), accBlk := true }
  | .imuli px d a _ g => { g := g, px := px, cls := .multiply, srcs := [(a.toNat, 1)], dst := some (d.toNat, 1), accBlk := true }
  | .iadds px d a b g => { g := g, px := px, cls := .integer, srcs := [(a.toNat, 1), (b.toNat, 1)], dst := some (d.toNat, 1), accBlk := true }
  | .nadds px d a b g => { g := g, px := px, cls := .integer, srcs := [(a.toNat, 1), (b.toNat, 1)], dst := some (d.toNat, 1), accBlk := true }
  | .isubs px d a b g => { g := g, px := px, cls := .integer, srcs := [(a.toNat, 1), (b.toNat, 1)], dst := some (d.toNat, 1), accBlk := true }
  | .and px d a b g => { g := g, px := px, cls := .integer, srcs := [(a.toNat, 1), (b.toNat, 1)], dst := some (d.toNat, 1), accBlk := true }
  | .or px d a b g => { g := g, px := px, cls := .integer, srcs := [(a.toNat, 1), (b.toNat, 1)], dst := some (d.toNat, 1), accBlk := true }
  | .xor px d a b g => { g := g, px := px, cls := .integer, srcs := [(a.toNat, 1), (b.toNat, 1)], dst := some (d.toNat, 1), accBlk := true }
  | .andn px d a b g => { g := g, px := px, cls := .integer, srcs := [(a.toNat, 1), (b.toNat, 1)], dst := some (d.toNat, 1), accBlk := true }
  | .andi px d a _ g => { g := g, px := px, cls := .integer, srcs := [(a.toNat, 1)], dst := some (d.toNat, 1), accBlk := true }
  | .ori px d a _ g => { g := g, px := px, cls := .integer, srcs := [(a.toNat, 1)], dst := some (d.toNat, 1), accBlk := true }
  | .xori px d a _ g => { g := g, px := px, cls := .integer, srcs := [(a.toNat, 1)], dst := some (d.toNat, 1), accBlk := true }
  | .shl px d a b g => { g := g, px := px, cls := .integer, srcs := [(a.toNat, 1), (b.toNat, 1)], dst := some (d.toNat, 1), accBlk := true }
  | .shr px d a b g => { g := g, px := px, cls := .integer, srcs := [(a.toNat, 1), (b.toNat, 1)], dst := some (d.toNat, 1), accBlk := true }
  | .sar px d a b g => { g := g, px := px, cls := .integer, srcs := [(a.toNat, 1), (b.toNat, 1)], dst := some (d.toNat, 1), accBlk := true }
  | .shli px d a k g => { g := g, px := px, cls := .integer, srcs := [(a.toNat, 1)], dst := some (d.toNat, 1), accBlk := true, bad := b4 (31 < k.toNat) }
  | .shri px d a k g => { g := g, px := px, cls := .integer, srcs := [(a.toNat, 1)], dst := some (d.toNat, 1), accBlk := true, bad := b4 (31 < k.toNat) }
  | .sari px d a k g => { g := g, px := px, cls := .integer, srcs := [(a.toNat, 1)], dst := some (d.toNat, 1), accBlk := true, bad := b4 (31 < k.toNat) }
  | .fshl px d a b g => { g := g, px := px, cls := .integer, srcs := [(a.toNat, 1), (b.toNat, 2), (d.toNat, 1)], dst := some (d.toNat, 1), accBlk := true }
  | .fshr px d a b g => { g := g, px := px, cls := .integer, srcs := [(a.toNat, 1), (b.toNat, 2), (d.toNat, 1)], dst := some (d.toNat, 1), accBlk := true }
  | .bfxs px d a b g => { g := g, px := px, cls := .integer, srcs := [(a.toNat, 1), (b.toNat, 2)], dst := some (d.toNat, 1), accBlk := true }
  | .bfxn px d a b g => { g := g, px := px, cls := .integer, srcs := [(a.toNat, 1), (b.toNat, 2)], dst := some (d.toNat, 1), accBlk := true }
  | .bfi px d a b g => { g := g, px := px, cls := .integer, srcs := [(a.toNat, 1), (b.toNat, 2), (d.toNat, 1)], dst := some (d.toNat, 1), accBlk := true }
  | .popc px d a g => { g := g, px := px, cls := .convert, srcs := [(a.toNat, 1)], dst := some (d.toNat, 1), accBlk := true }
  | .clz px d a g => { g := g, px := px, cls := .convert, srcs := [(a.toNat, 1)], dst := some (d.toNat, 1), accBlk := true }
  | .brev px d a g => { g := g, px := px, cls := .convert, srcs := [(a.toNat, 1)], dst := some (d.toNat, 1), accBlk := true }
  | .bmix px d a b g => { g := g, px := px, cls := .integer, srcs := [(a.toNat, 1), (b.toNat, 1), (d.toNat, 1)], dst := some (d.toNat, 1), accBlk := true }
  | .fadd px d a b g => { g := g, px := px, cls := .floating, srcs := [(a.toNat, 1), (b.toNat, 1)], dst := some (d.toNat, 1), accRnd := true, accBlk := true }
  | .fsub px d a b g => { g := g, px := px, cls := .floating, srcs := [(a.toNat, 1), (b.toNat, 1)], dst := some (d.toNat, 1), accRnd := true, accBlk := true }
  | .fmul px d a b g => { g := g, px := px, cls := .floating, srcs := [(a.toNat, 1), (b.toNat, 1)], dst := some (d.toNat, 1), accRnd := true, accBlk := true }
  | .ffma px d a b g => { g := g, px := px, cls := .floating, srcs := [(a.toNat, 1), (b.toNat, 1)], dst := some (d.toNat, 1), accRnd := true, accBlk := true, accC := true }
  | .fmin px d a b g => { g := g, px := px, cls := .floating, srcs := [(a.toNat, 1), (b.toNat, 1)], dst := some (d.toNat, 1), accBlk := true }
  | .fmax px d a b g => { g := g, px := px, cls := .floating, srcs := [(a.toNat, 1), (b.toNat, 1)], dst := some (d.toNat, 1), accBlk := true }
  | .fsfRcp px d a g => { g := g, px := px, cls := .special, srcs := [(a.toNat, 1)], dst := some (d.toNat, 1), accRnd := true }
  | .fsfRsq px d a g => { g := g, px := px, cls := .special, srcs := [(a.toNat, 1)], dst := some (d.toNat, 1), accRnd := true }
  | .fsfSqrt px d a g => { g := g, px := px, cls := .special, srcs := [(a.toNat, 1)], dst := some (d.toNat, 1), accRnd := true }
  | .fsfExp2 px d a g => { g := g, px := px, cls := .special, srcs := [(a.toNat, 1)], dst := some (d.toNat, 1), accRnd := true }
  | .fsfLog2 px d a g => { g := g, px := px, cls := .special, srcs := [(a.toNat, 1)], dst := some (d.toNat, 1), accRnd := true }
  | .fsfSinpi px d a g => { g := g, px := px, cls := .special, srcs := [(a.toNat, 1)], dst := some (d.toNat, 1), accRnd := true }
  | .fsfCospi px d a g => { g := g, px := px, cls := .special, srcs := [(a.toNat, 1)], dst := some (d.toNat, 1), accRnd := true }
  | .fsfTanh px d a g => { g := g, px := px, cls := .special, srcs := [(a.toNat, 1)], dst := some (d.toNat, 1), accRnd := true }
  | .fsfAbs px d a g => { g := g, px := px, cls := .floating, srcs := [(a.toNat, 1)], dst := some (d.toNat, 1), accRnd := true, accBlk := true }
  | .fsfNeg px d a g => { g := g, px := px, cls := .floating, srcs := [(a.toNat, 1)], dst := some (d.toNat, 1), accRnd := true, accBlk := true }
  | .fsfFract px d a g => { g := g, px := px, cls := .floating, srcs := [(a.toNat, 1)], dst := some (d.toNat, 1), accRnd := true, accBlk := true }
  | .fsfFloor px d a g => { g := g, px := px, cls := .floating, srcs := [(a.toNat, 1)], dst := some (d.toNat, 1), accRnd := true, accBlk := true }
  | .fsfCeil px d a g => { g := g, px := px, cls := .floating, srcs := [(a.toNat, 1)], dst := some (d.toNat, 1), accRnd := true, accBlk := true }
  | .fsfTrunc px d a g => { g := g, px := px, cls := .floating, srcs := [(a.toNat, 1)], dst := some (d.toNat, 1), accRnd := true, accBlk := true }
  | .fsfRint px d a g => { g := g, px := px, cls := .floating, srcs := [(a.toNat, 1)], dst := some (d.toNat, 1), accRnd := true, accBlk := true }
  | .badd2 px d a b g => { g := g, px := px, cls := .packed, srcs := [(a.toNat, 1), (b.toNat, 1)], dst := some (d.toNat, 1), accRnd := true, accBlk := true }
  | .bmul2 px d a b g => { g := g, px := px, cls := .packed, srcs := [(a.toNat, 1), (b.toNat, 1)], dst := some (d.toNat, 1), accRnd := true, accBlk := true }
  | .bfma2 px d a b g => { g := g, px := px, cls := .packed, srcs := [(a.toNat, 1), (b.toNat, 1)], dst := some (d.toNat, 1), accRnd := true, accBlk := true, accC := true }
  | .hadd2 px d a b g => { g := g, px := px, cls := .packed, srcs := [(a.toNat, 1), (b.toNat, 1)], dst := some (d.toNat, 1), accRnd := true, accBlk := true }
  | .hmul2 px d a b g => { g := g, px := px, cls := .packed, srcs := [(a.toNat, 1), (b.toNat, 1)], dst := some (d.toNat, 1), accRnd := true, accBlk := true }
  | .hfma2 px d a b g => { g := g, px := px, cls := .packed, srcs := [(a.toNat, 1), (b.toNat, 1)], dst := some (d.toNat, 1), accRnd := true, accBlk := true, accC := true }
  | .dot4i px d a b g => { g := g, px := px, cls := .dot, srcs := [(a.toNat, 1), (b.toNat, 1)], dst := some (d.toNat, 1), accBlk := true, accC := true }
  | .dot2b px d a b g => { g := g, px := px, cls := .dot, srcs := [(a.toNat, 1), (b.toNat, 1)], dst := some (d.toNat, 1), accRnd := true, accBlk := true, accC := true }
  | .dot4e4 px d a b g => { g := g, px := px, cls := .dot, srcs := [(a.toNat, 1), (b.toNat, 1)], dst := some (d.toNat, 1), accRnd := true, accBlk := true, accC := true }
  | .dot4e5 px d a b g => { g := g, px := px, cls := .dot, srcs := [(a.toNat, 1), (b.toNat, 1)], dst := some (d.toNat, 1), accRnd := true, accBlk := true, accC := true }
  | .cvt px d a v s f g => { g := g, px := px, cls := .convert, accRnd := true, accBlk := true, srcs := cvtSrcs v f d a, dst := some (cvtDst v f d), bad := b4 (!cvtLegal v s f) }
  | .cvtmx px d a s e g => { g := g, px := px, cls := .convert, srcs := [(a.toNat, 1)], dst := some (d.toNat, 1), accRnd := true, accBlk := true, scale := some (4 * s.toNat), bad := b4 (127 < scaleTop px e) }
  | .qmx px d a s e g => { g := g, px := px, cls := .convert, srcs := [(a.toNat, 1)], dst := some (d.toNat, 1), accRnd := true, accBlk := true, scale := some (4 * s.toNat), bad := b4 (127 < scaleTop px e) }
  | .mxsclE4m3 px d a g => { g := g, px := px, cls := .convert, srcs := [(a.toNat, 1)], dst := some (d.toNat, 1), accBlk := true }
  | .mxsclE5m2 px d a g => { g := g, px := px, cls := .convert, srcs := [(a.toNat, 1)], dst := some (d.toNat, 1), accBlk := true }
  | .mxsclE2m3 px d a g => { g := g, px := px, cls := .convert, srcs := [(a.toNat, 1)], dst := some (d.toNat, 1), accBlk := true }
  | .mxsclE3m2 px d a g => { g := g, px := px, cls := .convert, srcs := [(a.toNat, 1)], dst := some (d.toNat, 1), accBlk := true }
  | .mxsclE2m1 px d a g => { g := g, px := px, cls := .convert, srcs := [(a.toNat, 1)], dst := some (d.toNat, 1), accBlk := true }
  | .mxsclMxint8 px d a g => { g := g, px := px, cls := .convert, srcs := [(a.toNat, 1)], dst := some (d.toNat, 1), accBlk := true }
  | .dsmul px d a b g => { g := g, px := px, cls := .convert, srcs := [(a.toNat, 1), (b.toNat, 1)], dst := some (d.toNat, 1), accBlk := true }
  | .dscvtFromf32 px d a _ g => { g := g, px := px, cls := .convert, srcs := [(a.toNat, 1), (d.toNat, 1)], dst := some (d.toNat, 1), accRnd := true, accBlk := true }
  | .dscvtTof32 px d a _ g => { g := g, px := px, cls := .convert, srcs := [(a.toNat, 1)], dst := some (d.toNat, 1), accRnd := true, accBlk := true }
  | .dscvtFromi32 px d a _ g => { g := g, px := px, cls := .convert, srcs := [(a.toNat, 1), (d.toNat, 1)], dst := some (d.toNat, 1), accRnd := true, accBlk := true }
  | .dscvtToi32 px d a _ g => { g := g, px := px, cls := .convert, srcs := [(a.toNat, 1)], dst := some (d.toNat, 1), accRnd := true, accBlk := true }
  | .dscvtCanon px d a g => { g := g, px := px, cls := .convert, srcs := [(a.toNat, 1)], dst := some (d.toNat, 1), accRnd := true, accBlk := true }
  | .dsdot4 px d a b g => { g := g, px := px, cls := .dot, srcs := [(a.toNat, 1), (b.toNat, 1)], dst := some (d.toNat, 1), accBlk := true, accC := true }
  | .icmp px c p a b g => { g := g, px := px, cls := .predicate, srcs := [(a.toNat, 1), (b.toNat, 1)], pdst := some p.toNat, bad := b4 (5 < c.toNat) ++ b4 (5 < p.toNat) }
  | .ncmp px c p a b g => { g := g, px := px, cls := .predicate, srcs := [(a.toNat, 1), (b.toNat, 1)], pdst := some p.toNat, bad := b4 (5 < c.toNat) ++ b4 (5 < p.toNat) }
  | .fcmp px c p a b g => { g := g, px := px, cls := .predicate, srcs := [(a.toNat, 1), (b.toNat, 1)], pdst := some p.toNat, bad := b4 (6 < c.toNat) ++ b4 (5 < p.toNat) }
  | .icmpi px c p a _ g => { g := g, px := px, cls := .predicate, srcs := [(a.toNat, 1)], pdst := some p.toNat, bad := b4 (5 < c.toNat) ++ b4 (5 < p.toNat) }
  | .pand px p i j g => { g := g, px := px, cls := .predicate, pdst := some p.toNat, psrc := [i.toNat, j.toNat], bad := b4 (5 < p.toNat) ++ b4 (11 < i.toNat) ++ b4 (11 < j.toNat) }
  | .por px p i j g => { g := g, px := px, cls := .predicate, pdst := some p.toNat, psrc := [i.toNat, j.toNat], bad := b4 (5 < p.toNat) ++ b4 (11 < i.toNat) ++ b4 (11 < j.toNat) }
  | .pxor px p i j g => { g := g, px := px, cls := .predicate, pdst := some p.toNat, psrc := [i.toNat, j.toNat], bad := b4 (5 < p.toNat) ++ b4 (11 < i.toNat) ++ b4 (11 < j.toNat) }
  | .sel px d a b g => { g := g, px := px, cls := .integer, srcs := [(a.toNat, 1), (b.toNat, 1)], dst := some (d.toNat, 1), accBlk := true }
  | .ptox px d g => { g := g, px := px, cls := .predicate, dst := some (d.toNat, 1), psrc := List.range 12 }
  | .xtop px a g => { g := g, px := px, cls := .predicate, srcs := [(a.toNat, 1)], pall := true }
  | .mov px d a g => { g := g, px := px, cls := .integer, srcs := [(a.toNat, 1)], dst := some (d.toNat, 1), accBlk := true }
  | .movi px d _ g => { g := g, px := px, cls := .integer, dst := some (d.toNat, 1), accBlk := true }
  | .ldi px d g _ => { g := g, px := px, cls := .integer, dst := some (d.toNat, 1) }
  | .lxor px d a k g => { g := g, px := px, cls := .cross, srcs := [(a.toNat, 1)], dst := some (d.toNat, 1), bad := b4 (31 < k.toNat) }
  | .lget px d a b g => { g := g, px := px, cls := .cross, srcs := [(a.toNat, 1), (b.toNat, 1)], dst := some (d.toNat, 1) }
  | .lrot px d a k g => { g := g, px := px, cls := .cross, srcs := [(a.toNat, 1)], dst := some (d.toNat, 1), bad := b4 (31 < k.toNat) }
  | .lrots px d a w k g => { g := g, px := px, cls := .cross, srcs := [(a.toNat, 1)], dst := some (d.toNat, 1), bad := b4 (segWidth w ≤ k.toNat) }
  | .consNone px p q g => { g := g, px := px, cls := .cross, pdst := some p.toNat, psrc := [q.toNat], bad := b4 (5 < p.toNat) ++ b4 (11 < q.toNat) }
  | .consEvery px p q g => { g := g, px := px, cls := .cross, pdst := some p.toNat, psrc := [q.toNat], bad := b4 (5 < p.toNat) ++ b4 (11 < q.toNat) }
  | .consSame px p a g => { g := g, px := px, cls := .cross, srcs := [(a.toNat, 1)], pdst := some p.toNat, bad := b4 (5 < p.toNat) }
  | .consMask px d q g => { g := g, px := px, cls := .cross, dst := some (d.toNat, 1), psrc := [q.toNat], bad := b4 (11 < q.toNat) }
  | .consPeers px d a g => { g := g, px := px, cls := .cross, srcs := [(a.toNat, 1)], dst := some (d.toNat, 1) }
  | .consCount px d q g => { g := g, px := px, cls := .cross, dst := some (d.toNat, 1), psrc := [q.toNat], bad := b4 (11 < q.toNat) }
  | .consFirst px d q g => { g := g, px := px, cls := .cross, dst := some (d.toNat, 1), psrc := [q.toNat], bad := b4 (11 < q.toNat) }
  | .rdsys px d n g => { g := g, px := px, cls := .single, dst := some (d.toNat, 1), bad := b4 (12 < n.toNat) }
  | .wrsys px a n g => { g := g, px := px, cls := .single, srcs := [(a.toNat, 1)], bad := b4 (!sysWritable n) }
  | .ld px d a z _ g => { g := g, px := px, cls := .memory, srcs := [(a.toNat, 2)], dst := some (d.toNat, sizeRegs z), bad := b4 (6 < z.toNat) }
  | .lda px d a z s g => { g := g, px := px, cls := .memory, srcs := [(a.toNat, 2)], dst := some (d.toNat, sizeRegs z), bad := b4 (6 < z.toNat) ++ b4 (4 < s.toNat) }
  | .st px z _ a b g => { g := g, px := px, cls := .memory, srcs := [(a.toNat, 2), (b.toNat, sizeRegs z)], bad := b4 (!storeSize z) }
  | .stl px z s a b g => { g := g, px := px, cls := .memory, srcs := [(a.toNat, 2), (b.toNat, sizeRegs z)], bad := b4 (!storeSize z) ++ b4 (4 < s.toNat) }
  | .ldk px d a _ g => { g := g, px := px, cls := .memory, srcs := [(a.toNat, 2)], dst := some (d.toNat, 2) }
  | .rcn px d a m s g => { g := g, px := px, cls := .memory, dst := some (d.toNat, 1), srcs := (a.toNat, 2) :: rcnSrcs m d, bad := b4 (8 < m.toNat) ++ b4 (!reconcileScope s) }
  | .rcnx px d a m s g => { g := g, px := px, cls := .memory, dst := some (d.toNat, 2), srcs := (a.toNat, 2) :: rcnSrcs m d, bad := b4 (8 < m.toNat) ++ b4 (!reconcileScope s) }
  | .cctlInv px a g => { g := g, px := px, cls := .single, srcs := [(a.toNat, 2)] }
  | .cctlInvall px g => { g := g, px := px, cls := .single }
  | .cctlDemote px a g => { g := g, px := px, cls := .single, srcs := [(a.toNat, 2)] }
  | .cctlEvict px a g => { g := g, px := px, cls := .single, srcs := [(a.toNat, 2)] }
  | .pref px a _ g => { g := g, px := px, cls := .single, srcs := [(a.toNat, 2)] }
  | .fence px o s g => { g := g, px := px, cls := .single, bad := b4 (2 < o.toNat) ++ b4 (4 < s.toNat) }
  | .atom px d a o s g => { g := g, px := px, cls := .memory, srcs := [(a.toNat, 2), (d.toNat, casRegs o 1)], dst := some (d.toNat, 1), even := casEven o d, bad := b4 (14 < o.toNat) ++ b4 (4 < s.toNat) }
  | .atomr px d a o s g => { g := g, px := px, cls := .memory, srcs := [(a.toNat, 2), (d.toNat, casRegs o 1)], dst := some (d.toNat, 1), even := casEven o d, bad := b4 (14 < o.toNat) ++ b4 (4 < s.toNat) }
  | .red px d a o s g => { g := g, px := px, cls := .memory, srcs := [(a.toNat, 2), (d.toNat, 1)], bad := b4 (!redOp o) ++ b4 (4 < s.toNat) }
  | .atom64 px d a o s g => { g := g, px := px, cls := .memory, srcs := [(a.toNat, 2), (d.toNat, casRegs o 2)], dst := some (d.toNat, 2), bad := b4 (9 < o.toNat) ++ b4 (4 < s.toNat) }
  | .dqpush px a b g => { g := g, px := px, cls := .single, srcs := [(a.toNat, 2), (b.toNat, 1)] }
  | .dqpop px d a g => { g := g, px := px, cls := .single, srcs := [(a.toNat, 2)], dst := some (d.toNat, 2) }
  | .dqsteal px d a g => { g := g, px := px, cls := .single, srcs := [(a.toNat, 2)], dst := some (d.toNat, 2) }
  | .binit px a b g => { g := g, px := px, cls := .sync, srcs := [(a.toNat, 2), (b.toNat, 2)] }
  | .arv px a _ s g => { g := g, px := px, cls := .sync, srcs := [(a.toNat, 2)], bad := b4 (4 < s.toNat) }
  | .bexp px a b g => { g := g, px := px, cls := .sync, srcs := [(a.toNat, 2), (b.toNat, 1)] }
  | .waitp px p a b g => { g := g, px := px, cls := .sync, srcs := [(a.toNat, 2), (b.toNat, 1)], pdst := some p.toNat, bad := b4 (5 < p.toNat) }
  | .tryw px p a b g => { g := g, px := px, cls := .sync, srcs := [(a.toNat, 2), (b.toNat, 2)], pdst := some p.toNat, bad := b4 (5 < p.toNat) }
  | .wait px _ _ _ _ g => { g := g, px := px, cls := .sync }
  | .copy px a b g => { g := g, px := px, cls := .single, srcs := [(a.toNat, 2), (b.toNat, 2)] }
  | .put px a b g => { g := g, px := px, cls := .single, srcs := [(a.toNat, 2), (b.toNat, 2)] }
  | .publ px a g => { g := g, px := px, cls := .single, srcs := [(a.toNat, 2)] }
  | .coll px d a g => { g := g, px := px, cls := .single, srcs := [(a.toNat, 2)], dst := some (d.toNat, 1) }
  | .mload px a g => { g := g, px := px, cls := .single, srcs := [(a.toNat, 2)] }
  | .amodeStorage px a g => { g := g, px := px, cls := .single, srcs := [(a.toNat, 1)] }
  | .amodeCompute px a g => { g := g, px := px, cls := .single, srcs := [(a.toNat, 1)] }
  | .mmv px a g => { g := g, px := px, cls := .single, srcs := [(a.toNat, 2)] }
  | .mmg px a g => { g := g, px := px, cls := .single, srcs := [(a.toNat, 2)] }
  | .acc px a g => { g := g, px := px, cls := .single, srcs := [(a.toNat, 2)] }
  | .bra _ g => { g := g, cls := .control }
  | .brx a g => { g := g, cls := .control, srcs := [(a.toNat, 2)] }
  | .call _ g => { g := g, cls := .control, dst := some (126, 2) }
  | .ret g => { g := g, cls := .control, srcs := [(126, 2)] }
  | .exit g => { g := g, cls := .control }
  | .win px _ g => { g := g, px := px, cls := .single }
  | .winAbs px _ g => { g := g, px := px, cls := .single }
  | .leaseSpill px _ a g => { g := g, px := px, cls := .single, srcs := [(a.toNat, 1)] }
  | .leaseFill px _ a g => { g := g, px := px, cls := .single, srcs := [(a.toNat, 1)] }
  | .leaseDrop px _ a g => { g := g, px := px, cls := .single, srcs := [(a.toNat, 1)] }
  | .sysNop px g => { g := g, px := px, cls := .control }
  | .sysTrap px a g => { g := g, px := px, cls := .single, srcs := [(a.toNat, 1)] }
  | .sysTret px g => { g := g, px := px, cls := .single }
  | .sysBkpt px g => { g := g, px := px, cls := .control }
  | .sysYield px g => { g := g, px := px, cls := .single }
  | .sysConv px g => { g := g, px := px, cls := .single }
  | .sysElect px p g => { g := g, px := px, cls := .control, pdst := some p.toNat, bad := b4 (5 < p.toNat) }
  | .sysPost px a g => { g := g, px := px, cls := .single, srcs := [(a.toNat, 2)] }
  | .sysTlbinv px s a g => { g := g, px := px, cls := .single, srcs := [(a.toNat, 2)], bad := b4 (4 < s.toNat || s.toNat < 2) }
  | .sysRdtime px d g => { g := g, px := px, cls := .control, dst := some (d.toNat, 2) }
  | .sysSleep px a g => { g := g, px := px, cls := .single, srcs := [(a.toNat, 1)] }
  | .sysCabort px a g => { g := g, px := px, cls := .single, srcs := [(a.toNat, 1)] }
  | .sysMstat px d a g => { g := g, px := px, cls := .single, srcs := [(a.toNat, 1)], dst := some (d.toNat, 1) }
  | .extIabs px d a g => { g := g, px := px, cls := .integer, srcs := [(a.toNat, 1)], dst := some (d.toNat, 1), accBlk := true }
  | .extIneg px d a g => { g := g, px := px, cls := .integer, srcs := [(a.toNat, 1)], dst := some (d.toNat, 1), accBlk := true }
  | .extNot px d a g => { g := g, px := px, cls := .integer, srcs := [(a.toNat, 1)], dst := some (d.toNat, 1), accBlk := true }
  | .extSext8 px d a g => { g := g, px := px, cls := .integer, srcs := [(a.toNat, 1)], dst := some (d.toNat, 1), accBlk := true }
  | .extSext16 px d a g => { g := g, px := px, cls := .integer, srcs := [(a.toNat, 1)], dst := some (d.toNat, 1), accBlk := true }
  | .extZext8 px d a g => { g := g, px := px, cls := .integer, srcs := [(a.toNat, 1)], dst := some (d.toNat, 1), accBlk := true }
  | .extZext16 px d a g => { g := g, px := px, cls := .integer, srcs := [(a.toNat, 1)], dst := some (d.toNat, 1), accBlk := true }
  | .extFfs px d a g => { g := g, px := px, cls := .convert, srcs := [(a.toNat, 1)], dst := some (d.toNat, 1), accBlk := true }
  | .deferredTrapDelivery .. => { enc := false, cls := .engine }
  | .pathPromotion .. => { enc := false, cls := .engine }
  | .activeSetResidencyExpiry .. => { enc := false, cls := .engine }
  | .activeSetFill .. => { enc := false, cls := .engine }
  | .loadDataReturn .. => { enc := false, cls := .engine }
  | .symbolResolve .. => { enc := false, cls := .engine }
  | .strikeClearance .. => { enc := false, cls := .engine }
  | .storePerformed .. => { enc := false, cls := .engine }
  | .atomicStep .. => { enc := false, cls := .engine }
  | .reconcileStep .. => { enc := false, cls := .engine }
  | .dequeStep .. => { enc := false, cls := .engine }
  | .barrierUpdate .. => { enc := false, cls := .engine }
  | .waiterResume .. => { enc := false, cls := .engine }
  | .trywDeadline .. => { enc := false, cls := .engine }
  | .sleepExpiry .. => { enc := false, cls := .engine }
  | .idleClockGate .. => { enc := false, cls := .engine }
  | .idlePowerGate .. => { enc := false, cls := .engine }
  | .coreWake .. => { enc := false, cls := .engine }
  | .deadlinePreWake .. => { enc := false, cls := .engine }
  | .longWaitThreshold .. => { enc := false, cls := .engine }
  | .hangSuspectThreshold .. => { enc := false, cls := .engine }
  | .copyStart .. => { enc := false, cls := .engine }
  | .copyPieceLand .. => { enc := false, cls := .engine }
  | .copyRetire .. => { enc := false, cls := .engine }
  | .putPiecePerformed .. => { enc := false, cls := .engine }
  | .collectiveComplete .. => { enc := false, cls := .engine }
  | .collPacketReceive .. => { enc := false, cls := .engine }
  | .abortTokenReceive .. => { enc := false, cls := .engine }
  | .postBufferDrain .. => { enc := false, cls := .engine }
  | .multicastEnqueue .. => { enc := false, cls := .engine }
  | .seqBlockRead .. => { enc := false, cls := .engine }
  | .seqStart .. => { enc := false, cls := .engine }
  | .amodeSwitch .. => { enc := false, cls := .engine }
  | .amodeStorageEntry .. => { enc := false, cls := .engine }
  | .columnSumDone .. => { enc := false, cls := .engine }
  | .mloadSlotDone .. => { enc := false, cls := .engine }
  | .mmvFetchDone .. => { enc := false, cls := .engine }
  | .mmvHighPlanesDone .. => { enc := false, cls := .engine }
  | .mmvLowPlanesDone .. => { enc := false, cls := .engine }
  | .mmvSumDone .. => { enc := false, cls := .engine }
  | .rowCommit .. => { enc := false, cls := .engine }
  | .accRowDone .. => { enc := false, cls := .engine }
  | .seqOpRetire .. => { enc := false, cls := .engine }
  | .seqStopRequest .. => { enc := false, cls := .engine }
  | .leasePlaced .. => { enc := false, cls := .engine }
  | .leaseFillData .. => { enc := false, cls := .engine }
  | .leaseRevoke .. => { enc := false, cls := .engine }
  | .translationWalkDone .. => { enc := false, cls := .engine }
  | .faultServiceCardPost .. => { enc := false, cls := .engine }
  | .faultResStore .. => { enc := false, cls := .engine }
  | .faultRetryWalkDone .. => { enc := false, cls := .engine }
  | .tlbinvApply .. => { enc := false, cls := .engine }
  | .tlbinvAck .. => { enc := false, cls := .engine }
  | .gets .. => { enc := false, cls := .engine }
  | .evict .. => { enc := false, cls := .engine }
  | .evack .. => { enc := false, cls := .engine }
  | .data .. => { enc := false, cls := .engine }
  | .wr .. => { enc := false, cls := .engine }
  | .inv .. => { enc := false, cls := .engine }
  | .invack .. => { enc := false, cls := .engine }
  | .own .. => { enc := false, cls := .engine }
  | .fwdGets .. => { enc := false, cls := .engine }
  | .fwdWr .. => { enc := false, cls := .engine }
  | .fwdOwn .. => { enc := false, cls := .engine }
  | .wb .. => { enc := false, cls := .engine }
  | .wback .. => { enc := false, cls := .engine }
  | .nack .. => { enc := false, cls := .engine }
  | .exportRevoke .. => { enc := false, cls := .engine }
  | .replicaWrite .. => { enc := false, cls := .engine }
  | .replicaUpdate .. => { enc := false, cls := .engine }
  | .hostAtomicCasResponse .. => { enc := false, cls := .engine }
  | .hostSnoop .. => { enc := false, cls := .engine }
  | .hostMemRequest .. => { enc := false, cls := .engine }
  | .qdbDoorbell .. => { enc := false, cls := .engine }
  | .retrycntClear .. => { enc := false, cls := .engine }
  | .registerWrite .. => { enc := false, cls := .engine }
  | .setbase .. => { enc := false, cls := .engine }
  | .refresh .. => { enc := false, cls := .engine }
  | .qstatus .. => { enc := false, cls := .engine }
  | .qresume .. => { enc := false, cls := .engine }
  | .import .. => { enc := false, cls := .engine }
  | .unimport .. => { enc := false, cls := .engine }
  | .unimportComplete .. => { enc := false, cls := .engine }
  | .hibernate .. => { enc := false, cls := .engine }
  | .quiescePreemptDone .. => { enc := false, cls := .engine }
  | .quiesceCollectiveTimeout .. => { enc := false, cls := .engine }
  | .quiesceOutwardDone .. => { enc := false, cls := .engine }
  | .quiesceRecallDone .. => { enc := false, cls := .engine }
  | .quiesceFreeze .. => { enc := false, cls := .engine }
  | .hibernateImageDone .. => { enc := false, cls := .engine }
  | .wake .. => { enc := false, cls := .engine }
  | .dependencePoll .. => { enc := false, cls := .engine }
  | .cardHeadCheck .. => { enc := false, cls := .engine }
  | .cardStart .. => { enc := false, cls := .engine }
  | .gangPlacement .. => { enc := false, cls := .engine }
  | .priorityAgeing .. => { enc := false, cls := .engine }
  | .swapOutDecision .. => { enc := false, cls := .engine }
  | .clusterReallocation .. => { enc := false, cls := .engine }
  | .crewEnd .. => { enc := false, cls := .engine }
  | .swapOutStop .. => { enc := false, cls := .engine }
  | .swapOutDrainDone .. => { enc := false, cls := .engine }
  | .swapOutCloseDone .. => { enc := false, cls := .engine }
  | .swapOutImageWritten .. => { enc := false, cls := .engine }
  | .swapOutFree .. => { enc := false, cls := .engine }
  | .reedReport .. => { enc := false, cls := .engine }
  | .rollbackRestoreDone .. => { enc := false, cls := .engine }
  | .recoverySpanEnd .. => { enc := false, cls := .engine }
  | .relaunchCatchupEnd .. => { enc := false, cls := .engine }
  | .patrolScrub .. => { enc := false, cls := .engine }
  | .converterCalibration .. => { enc := false, cls := .engine }
  | .calibrationPause .. => { enc := false, cls := .engine }
  | .flitReceive .. => { enc := false, cls := .engine }
  | .nakReceive .. => { enc := false, cls := .engine }
  | .linkRetrainDone .. => { enc := false, cls := .engine }
  | .linkBringup .. => { enc := false, cls := .engine }
  | .linkKeyUpdate .. => { enc := false, cls := .engine }
  | .powerOn .. => { enc := false, cls := .engine }
  | .settReset .. => { enc := false, cls := .engine }
  | .getVersion .. => { enc := false, cls := .engine }
  | .getCapabilities .. => { enc := false, cls := .engine }
  | .negotiateAlgorithms .. => { enc := false, cls := .engine }
  | .getDigests .. => { enc := false, cls := .engine }
  | .getCertificate .. => { enc := false, cls := .engine }
  | .challenge .. => { enc := false, cls := .engine }
  | .getMeasurements .. => { enc := false, cls := .engine }
  | .keyExchange .. => { enc := false, cls := .engine }
  | .finish .. => { enc := false, cls := .engine }
  | .keyUpdate .. => { enc := false, cls := .engine }
  | .endSession .. => { enc := false, cls := .engine }
  | .keyLoad .. => { enc := false, cls := .engine }
  | .keyClear .. => { enc := false, cls := .engine }
  | .filterEntryWrite .. => { enc := false, cls := .engine }
  | .dvsecRead .. => { enc := false, cls := .engine }
  | .railOvercurrent .. => { enc := false, cls := .engine }
  | .clockRecover .. => { enc := false, cls := .engine }
  | .thermalTrip .. => { enc := false, cls := .engine }
  | .supplyUndervoltage .. => { enc := false, cls := .engine }
  | .illegalInstruction .. => { enc := false, cls := .engine }
  | .unknownOp .. => { enc := false, cls := .engine }
  | .swapInRestoreDone .. => { enc := false, cls := .engine }
  | .hostLinkDown .. => { enc := false, cls := .engine }

/-- The instruction writes a window register or a predicate, so it accepts mz and cnt (R40). -/
def Info.accResult (f : Info) : Bool := f.dst.isSome || f.pdst.isSome || f.pall

/-- Reasons of R60 that lie in the prefix word: reserved mask and rnd (0x04), a field that is not accepted (0x07). -/
def prefixReasons (f : Info) (p : Pfx) : List Nat :=
  b4 (12 < p.mask.toNat) ++ b4 (5 < p.rnd.toNat) ++
  (if (p.rnd != 0 && !f.accRnd) || (p.c != 0 && !f.accC) || ((p.rows != 0 || p.cols != 0) && !f.accBlk) ||
      ((p.mz || p.cnt != 0) && !f.accResult) then [7] else [])

/-- Reason 0x05 of R60: an odd pair or a misaligned quad (R44). -/
def pairReasons (f : Info) : List Nat :=
  if (f.srcs ++ f.dst.toList ++ f.even).all (fun o => o.1 % o.2 = 0) then [] else [5]

/-- Reasons of R60 that lie in the base word. -/
def baseReasons (f : Info) : List Nat := f.bad ++ pairReasons f

/-- The least of the reasons, if there is one. -/
def leastReason : List Nat → Option Nat
  | [] => none
  | r :: rs =>
    match leastReason rs with
    | none => some r
    | some m => some (min r m)

/-- TRAPINFO of an illegal instruction (R60): the lowest reason, bit 31 where it lies in the prefix word. -/
def illegalInfo (inPrefix inBase : List Nat) : Option Nat :=
  match leastReason inPrefix, leastReason inBase with
  | none, none => none
  | some p, none => some (2 ^ 31 + p)
  | none, some b => some b
  | some p, some b => some (if p ≤ b then 2 ^ 31 + p else b)

/-- TRAPINFO of the illegal-instruction trap that the instruction's fields raise, if they raise one (R60). -/
def illegalOf (i : Instr) : Option Nat :=
  let f := info i
  match f.px with
  | none => illegalInfo [] (baseReasons f)
  | some p => illegalInfo (prefixReasons f p) (baseReasons f)

/-- Source operands with the accumulator c: the prefix field, or d without a prefix (R39, R40). -/
def Info.srcList (f : Info) : List (Nat × Nat) :=
  if f.accC then
    f.srcs ++ [(match f.px with | some p => p.c.toNat | none => (f.dst.getD (0, 1)).1, 1)]
  else f.srcs

/-- Block rows and columns (R45). -/
def Info.rows (f : Info) : Nat := match f.px with | some p => p.rows.toNat + 1 | none => 1
def Info.cols (f : Info) : Nat := match f.px with | some p => p.cols.toNat + 1 | none => 1

/-- Rounding mode number of R79 (R39: RNE without a prefix). -/
def Info.rnd (f : Info) : Nat := match f.px with | some p => p.rnd.toNat | none => 0

def Info.strict (f : Info) : Bool := match f.px with | some p => p.strict | none => false

def Info.mz (f : Info) : Bool := match f.px with | some p => p.mz | none => false

/-- Consumer count that the instruction's writes carry (R35, R39). -/
def Info.cnt (f : Info) : Nat :=
  match f.px with
  | some p => p.cnt.toNat
  | none => f.g.toNat - 12

/-- Instruction length in words: the prefix, the base word, LDI's literal (R41, R42). -/
def lengthWords (i : Instr) : Nat :=
  (if (info i).px.isSome then 1 else 0) + (match i with | .ldi .. => 2 | _ => 1)

/-- Result latency of R30 for operands that hit the register cache. -/
def IssueClass.latency : IssueClass → Nat
  | .integer => 4 | .multiply => 6 | .wide => 6 | .floating => 6 | .packed => 6 | .dot => 8 | .special => 20
  | .convert => 8 | .predicate => 4 | .cross => 8 | .memory => 20 | .control => 2 | .sync => 24 | .single => 8
  | .engine => 0

/-- Cycles for which the instruction occupies its slot (R20, R30). -/
def IssueClass.occupies : IssueClass → Nat
  | .special => 4 | .wide => 2 | _ => 1

end Sys2Proof.Machine
end

