-- ==== Sys2Proof/Machine/CrewState.lean ====
section
/-! DEFINITION. The state of one crew: registers with their consumer counts, predicates, threads, pending forms, the
egress queue, counters, leases, the causal frontier and the trap state. -/

namespace Sys2Proof.Machine

/-- One lane of one register (R25): value, consumer count, released mark. -/
structure Slot where
  val : Word := 0
  cnt : BitVec 2 := 0
  rel : Bool := false
deriving DecidableEq, Repr

/-- What a thread waits for in WAITP or TRYW (R164, R165). -/
structure WaitOn where
  /-- near-window address of the barrier object -/
  obj : Nat
  phase : Nat
  /-- destination predicate pair -/
  pair : Nat
  /-- TRYW's deadline, compared with TIMELO; WAITP has none -/
  deadline : Option Nat
  /-- address of the next instruction; the thread's pc stays at the wait -/
  next : BitVec 64
deriving DecidableEq, Repr

/-- The state of a thread (R17, R389). -/
inductive ThreadSt where
  | exited
  | ready
  /-- in WAITP or TRYW -/
  | waiting (w : WaitOn)
  /-- in SYS.sleep until a cycle; its full time; the address of the next instruction -/
  | sleeping (until_ : Nat) (span : Nat) (next : BitVec 64)
  /-- on a translation in progress or a fault (R141, R341) -/
  | parked
deriving DecidableEq, Repr

/-- One thread (R21, R175). -/
structure Thread where
  pc : BitVec 64 := 0
  st : ThreadSt := .exited
  /-- wait counter of R21 -/
  wait : Nat := 0
  /-- cycle from which its next instruction may issue (R30, control class) -/
  due : Nat := 0
deriving DecidableEq, Repr

/-- One lane of a pending form: scale·σ + offset, or the offset alone where held (R87). -/
structure LaneForm where
  scale : Word := 0
  offset : Word := 0
  held : Bool := true
deriving DecidableEq, Repr

/-- An entry of the pending-form table (R87). -/
structure Form where
  reg : Nat
  sym : Nat
  /-- 0 raw, 1 integer, 2 FP32 -/
  kind : Nat
  rnd : Nat
  lanes : List LaneForm
  /-- cycle from which a composing instruction may read the form (R89) -/
  avail : Nat
deriving DecidableEq, Repr

/-- An allocated symbol (R87, R97). -/
structure Sym where
  num : Nat
  /-- the load's request; its lanes hold the data that has arrived -/
  req : Nat
  /-- lanes of the load -/
  mask : LaneMask
  /-- the data of every lane has arrived -/
  resolved : Bool := false
  /-- last cycle in which a composition under R96 completes -/
  until_ : Nat := 0
deriving DecidableEq, Repr

/-- An entry of the egress queue (R93): the store's request and the form its data register had. -/
structure Egress where
  req : Nat
  /-- the captured form; none once the data is known -/
  form : Option Form
deriving DecidableEq, Repr

/-- A causal stamp (R284); the fields that follow from the instruction. -/
structure Stamp where
  devgen : Nat := 0
  src : Nat := 0
  sett : Nat := 0
  gang : Nat := 0
  ganggen : Nat := 0
  block : Nat := 0
  crew : Nat := 0
  epoch : Nat := 0
  seq : Nat := 0
  lane : Nat := 0
  sat : Bool := false
  rc : Bool := false
deriving DecidableEq, Repr

/-- A crew's frontier (R286): pairs (crew identity, epoch), newest first. -/
structure Frontier where
  devgen : Nat := 0
  ganggen : Nat := 0
  pairs : List (Nat × Nat) := []
deriving DecidableEq, Repr

/-- Where a lease's contents stand (R251, R253). -/
inductive LeaseAt where
  | moving | lender (core : Nat) | backing | filling | lost
deriving DecidableEq, Repr

/-- A register lease (R179, R251). Slots are keyed 32·k + lane for register k of the lease. -/
structure Lease where
  first : Nat
  count : Nat
  place : LeaseAt
  lender : Option Nat
  revoked : Bool
  slots : Tab Slot
  /-- program counter of the SPILL that opened it -/
  pc : BitVec 64 := 0
deriving DecidableEq, Repr

/-- An entry of the deferred-trap list (R348). -/
structure Deferred where
  code : Nat
  pc : BitVec 64
  info : Word
  /-- fault buffer entry that TRET frees -/
  entry : Option Nat
  /-- cycle in which it fell due -/
  due : Nat
deriving DecidableEq, Repr

/-- What a near access meets besides its bytes (R27, R244, R246). -/
structure NearFlags where
  gap : Bool := false
  modemiss : Bool := false
  deadread : Bool := false
deriving DecidableEq, Repr

def NearFlags.or (a b : NearFlags) : NearFlags := ⟨a.gap || b.gap, a.modemiss || b.modemiss, a.deadread || b.deadread⟩

/-- A leaf translation (R334, R338). -/
structure Leaf where
  /-- log2 of the page size -/
  size : Nat
  key : Nat
  ks : Bool
  rep : Bool
  rdup : Bool
  sh : Bool
  cache : Nat
  buf : Nat
  pa : Nat
  w : Bool
  x : Bool
deriving DecidableEq, Repr

/-- A TLB entry: the virtual page number of its size and the leaf (R338). -/
structure TlbEntry where
  vpn : Nat
  leaf : Leaf
deriving DecidableEq, Repr

/-- One crew. -/
structure Crew where
  live : Bool := false
  core : Nat := 0
  /-- key of the crew's block -/
  block : Nat := 0
  /-- CREWID (R137) -/
  idx : Nat := 0
  /-- registers allocated (R43) -/
  nregs : Nat := 0
  /-- register slots, keyed 32·register + lane -/
  regs : Tab Slot := []
  /-- predicates p0 to p11 of each lane (R35) -/
  preds : Tab (BitVec 12) := []
  threads : Tab Thread := []
  /-- window base in rows (R43) -/
  wb : Nat := 0
  /-- STATUS (R136) -/
  status : Word := 0
  trapCode : Word := 0
  trapInfo : Word := 0
  trapPc : BitVec 64 := 0
  /-- handler mode (R346) -/
  handler : Bool := false
  /-- on-core trap frame (R346) -/
  frame : Tab Thread := []
  /-- threads that executed the trapping instruction; none for a deferred trap (R347) -/
  trapLanes : Option LaneMask := none
  /-- fault buffer entry of the trap (R347) -/
  trapEntry : Option Nat := none
  deferred : List Deferred := []
  syms : List Sym := []
  forms : List Form := []
  egress : List Egress := []
  /-- outstanding counters (R29) -/
  loads : Nat := 0
  stores : Nat := 0
  copies : Nat := 0
  tiles : Nat := 0
  /-- register cache, most recently used first (R24) -/
  rcache : List Nat := []
  /-- cycle from which a dependant of a register may issue; predicate p under 512 + p (R32) -/
  busy : Tab Nat := []
  /-- registers whose data a memory request still brings (R32) -/
  inFlight : List Nat := []
  /-- cycle from which the crew's next instruction may issue after a crew-wide step or a descriptor read (R167) -/
  nextAt : Nat := 0
  leases : Tab (Option Lease) := []
  /-- release epoch and store sequence (R285) -/
  epoch : Nat := 0
  seq : Nat := 0
  frontier : Frontier := {}
  /-- tags that relaxed loads hold for the next acquire fence (R286) -/
  held : List (Nat × Nat) := []
  /-- requests that must be performed before later stores, releases and engine instructions (R153) -/
  fenceStores : List Nat := []
  /-- requests that must be performed before any later access (R153) -/
  fenceAll : List Nat := []
  /-- requests that must have returned their data before any later access (R146, R153) -/
  fenceLoads : List Nat := []
  /-- self-invalidate L1 when fenceLoads has drained (R146) -/
  selfInval : Bool := false
  /-- a fence of scope .sys awaits its stores, and the cycle in which the zero-length reads after them are complete (R373) -/
  fenceSys : Bool := false
  fenceUntil : Nat := 0
  /-- collective handles outstanding (R389) -/
  colls : List Nat := []
  /-- mstat's result of the latest TLBINV (R183) -/
  tlbinv : Word := 0
  /-- request of the crew's last TLBINV, plus 1 -/
  lastInv : Nat := 0
  /-- cycle in which the crew became ready (R18) -/
  readyAt : Nat := 0
  /-- cycle of its last issue (R20) -/
  lastIssue : Nat := 0
  /-- the crew is stopped by a swap-out (R386) -/
  stopped : Bool := false
  /-- translations that the crew's parked instruction has been brought, until it is performed (R141) -/
  brought : List (BitVec 64 × TlbEntry) := []
deriving DecidableEq, Repr

def Crew.init : Crew := {}

end Sys2Proof.Machine
end

