-- ==== Sys2Proof/Machine/Event.lean ====
section
/-! DEFINITION. What the agenda holds: the rows of the opcode table that have no encoding, as data. Each has the same
name and the same numbers as its constructor of `Sys2Proof.Instr`; `State.happen` runs it by the same meaning. -/

namespace Sys2Proof.Machine

/-- A step of an engine or an input, to come. -/
inductive Event where
  /-- DEFERRED_TRAP_DELIVERY (R348). -/
  | deferredTrapDelivery (crew : Nat)
  /-- PATH_PROMOTION (R21). -/
  | pathPromotion (crew : Nat) (lane : Nat)
  /-- ACTIVE_SET_RESIDENCY_EXPIRY (R18). -/
  | activeSetResidencyExpiry (core : Nat) (entry : Nat)
  /-- ACTIVE_SET_FILL (R18). -/
  | activeSetFill (core : Nat) (entry : Nat)
  /-- LOAD_DATA_RETURN (R29). -/
  | loadDataReturn (req : Nat)
  /-- SYMBOL_RESOLVE (R95). -/
  | symbolResolve (crew : Nat) (sym : Nat)
  /-- STRIKE_CLEARANCE (R413). -/
  | strikeClearance (req : Nat)
  /-- STORE_PERFORMED (R277). -/
  | storePerformed (req : Nat)
  /-- ATOMIC_STEP (R155). -/
  | atomicStep (req : Nat) (lane : Nat)
  /-- RECONCILE_STEP (R294). -/
  | reconcileStep (req : Nat) (lane : Nat)
  /-- DEQUE_STEP (R160). -/
  | dequeStep (hub : Nat)
  /-- BARRIER_UPDATE (R257). -/
  | barrierUpdate (upd : Nat)
  /-- WAITER_RESUME (R259). -/
  | waiterResume (crew : Nat) (lane : Nat)
  /-- TRYW_DEADLINE (R165). -/
  | trywDeadline (crew : Nat) (lane : Nat)
  /-- SLEEP_EXPIRY (R180). -/
  | sleepExpiry (crew : Nat) (lane : Nat)
  /-- IDLE_CLOCK_GATE (R261). -/
  | idleClockGate (core : Nat)
  /-- IDLE_POWER_GATE (R261). -/
  | idlePowerGate (core : Nat)
  /-- CORE_WAKE (R262). -/
  | coreWake (core : Nat)
  /-- DEADLINE_PRE_WAKE (R262). -/
  | deadlinePreWake (core : Nat)
  /-- LONG_WAIT_THRESHOLD (R431). -/
  | longWaitThreshold (core : Nat)
  /-- HANG_SUSPECT_THRESHOLD (R431). -/
  | hangSuspectThreshold (core : Nat)
  /-- COPY_START (R170). -/
  | copyStart (copy : Nat)
  /-- COPY_PIECE_LAND (R266). -/
  | copyPieceLand (copy : Nat) (piece : Nat)
  /-- COPY_RETIRE (R267). -/
  | copyRetire (copy : Nat)
  /-- PUT_PIECE_PERFORMED (R353). -/
  | putPiecePerformed (copy : Nat) (piece : Nat)
  /-- COLLECTIVE_COMPLETE (R381). -/
  | collectiveComplete (sett : Nat) (slot : Nat)
  /-- COLL_PACKET_RECEIVE (R380). -/
  | collPacketReceive (sett : Nat) (group : Nat) (attempt : Nat) (seq : Nat) (rank : Nat) (data : Nat)
  /-- ABORT_TOKEN_RECEIVE (R381). -/
  | abortTokenReceive (sett : Nat) (group : Nat) (attempt : Nat)
  /-- POST_BUFFER_DRAIN (R182). -/
  | postBufferDrain (core : Nat)
  /-- MULTICAST_ENQUEUE (R215). -/
  | multicastEnqueue (core : Nat) (op : Nat)
  /-- SEQ_BLOCK_READ (R217). -/
  | seqBlockRead (core : Nat) (op : Nat)
  /-- SEQ_START (R215). -/
  | seqStart (core : Nat)
  /-- AMODE_SWITCH (R220). -/
  | amodeSwitch (core : Nat) (op : Nat)
  /-- AMODE_STORAGE_ENTRY (R220). -/
  | amodeStorageEntry (block : Nat) (slot : Nat)
  /-- COLUMN_SUM_DONE (R220). -/
  | columnSumDone (core : Nat) (op : Nat)
  /-- MLOAD_SLOT_DONE (R222). -/
  | mloadSlotDone (core : Nat) (op : Nat)
  /-- MMV_FETCH_DONE (R230). -/
  | mmvFetchDone (core : Nat) (op : Nat)
  /-- MMV_HIGH_PLANES_DONE (R205). -/
  | mmvHighPlanesDone (core : Nat) (op : Nat)
  /-- MMV_LOW_PLANES_DONE (R230). -/
  | mmvLowPlanesDone (core : Nat) (op : Nat)
  /-- MMV_SUM_DONE (R204). -/
  | mmvSumDone (core : Nat) (op : Nat)
  /-- ROW_COMMIT (R231). -/
  | rowCommit (core : Nat) (op : Nat)
  /-- ACC_ROW_DONE (R235). -/
  | accRowDone (core : Nat) (op : Nat)
  /-- SEQ_OP_RETIRE (R214). -/
  | seqOpRetire (core : Nat) (op : Nat)
  /-- SEQ_STOP_REQUEST (R232). -/
  | seqStopRequest (core : Nat) (op : Nat)
  /-- LEASE_PLACED (R251). -/
  | leasePlaced (crew : Nat) (lease : Nat)
  /-- LEASE_FILL_DATA (R251). -/
  | leaseFillData (crew : Nat) (lease : Nat)
  /-- LEASE_REVOKE (R253). -/
  | leaseRevoke (crew : Nat) (lease : Nat)
  /-- TRANSLATION_WALK_DONE (R338). -/
  | translationWalkDone (walk : Nat)
  /-- FAULT_SERVICE_CARD_POST (R343). -/
  | faultServiceCardPost (sett : Nat)
  /-- FAULT_RES_STORE (R342). -/
  | faultResStore (sett : Nat) (entry : Nat) (value : Nat)
  /-- FAULT_RETRY_WALK_DONE (R343). -/
  | faultRetryWalkDone (sett : Nat) (entry : Nat)
  /-- TLBINV_APPLY (R183). -/
  | tlbinvApply (inv : Nat) (sett : Nat)
  /-- TLBINV_ACK (R183). -/
  | tlbinvAck (inv : Nat) (sett : Nat)
  /-- GETS (R365). -/
  | gets (sett : Nat) (sector : Nat) (core : Nat)
  /-- EVICT (R365). -/
  | evict (sett : Nat) (sector : Nat) (core : Nat)
  /-- EVACK (R366). -/
  | evack (core : Nat) (sector : Nat)
  /-- DATA (R366). -/
  | data (core : Nat) (sector : Nat)
  /-- WR (R365). -/
  | wr (sett : Nat) (req : Nat)
  /-- INV (R364). -/
  | inv (node : Nat) (sector : Nat) (collector : Nat)
  /-- INVACK (R368). -/
  | invack (sett : Nat) (collector : Nat)
  /-- OWN (R365). -/
  | own (sett : Nat) (sector : Nat) (node : Nat)
  /-- FWD_GETS (R367). -/
  | fwdGets (node : Nat) (sector : Nat) (core : Nat)
  /-- FWD_WR (R367). -/
  | fwdWr (node : Nat) (req : Nat)
  /-- FWD_OWN (R367). -/
  | fwdOwn (node : Nat) (sector : Nat) (asker : Nat)
  /-- WB (R365). -/
  | wb (sett : Nat) (sector : Nat) (node : Nat) (data : Nat)
  /-- WBACK (R367). -/
  | wback (node : Nat) (sector : Nat)
  /-- NACK (R365). -/
  | nack (sett : Nat) (req : Nat)
  /-- EXPORT_REVOKE (R352). -/
  | exportRevoke (sett : Nat) (entry : Nat)
  /-- REPLICA_WRITE (R356). -/
  | replicaWrite (sett : Nat) (area : Nat) (req : Nat)
  /-- REPLICA_UPDATE (R356). -/
  | replicaUpdate (sett : Nat) (area : Nat) (number : Nat)
  /-- HOST_ATOMIC_CAS_RESPONSE (R374). -/
  | hostAtomicCasResponse (req : Nat) (value : Nat)
  /-- HOST_SNOOP (R374). -/
  | hostSnoop (sett : Nat) (line : Nat)
  /-- HOST_MEM_REQUEST (R375). -/
  | hostMemRequest (sett : Nat) (kind : Nat) (address : Nat) (data : Nat)
  /-- QDB_DOORBELL (R313). -/
  | qdbDoorbell (sett : Nat) (queue : Nat) (value : Nat)
  /-- RETRYCNT_CLEAR (R371). -/
  | retrycntClear (sett : Nat) (value : Nat)
  /-- REGISTER_WRITE (R371). -/
  | registerWrite (sett : Nat) (offset : Nat) (value : Nat)
  /-- SETBASE (R372). -/
  | setbase (sett : Nat)
  /-- REFRESH (R372). -/
  | refresh (sett : Nat)
  /-- QSTATUS (R372). -/
  | qstatus (sett : Nat)
  /-- QRESUME (R372). -/
  | qresume (sett : Nat)
  /-- IMPORT (R351). -/
  | import (sett : Nat)
  /-- UNIMPORT (R372). -/
  | unimport (sett : Nat)
  /-- UNIMPORT_COMPLETE (R372). -/
  | unimportComplete (sett : Nat) (window : Nat)
  /-- HIBERNATE (R435). -/
  | hibernate (sett : Nat)
  /-- QUIESCE_PREEMPT_DONE (R435). -/
  | quiescePreemptDone
  /-- QUIESCE_COLLECTIVE_TIMEOUT (R435). -/
  | quiesceCollectiveTimeout
  /-- QUIESCE_OUTWARD_DONE (R435). -/
  | quiesceOutwardDone
  /-- QUIESCE_RECALL_DONE (R435). -/
  | quiesceRecallDone
  /-- QUIESCE_FREEZE (R435). -/
  | quiesceFreeze
  /-- HIBERNATE_IMAGE_DONE (R438). -/
  | hibernateImageDone
  /-- WAKE (R445). -/
  | wake (sett : Nat)
  /-- DEPENDENCE_POLL (R318). -/
  | dependencePoll (sett : Nat)
  /-- CARD_HEAD_CHECK (R316). -/
  | cardHeadCheck (sett : Nat) (queue : Nat)
  /-- CARD_START (R318). -/
  | cardStart (sett : Nat) (queue : Nat)
  /-- GANG_PLACEMENT (R326). -/
  | gangPlacement (sett : Nat)
  /-- PRIORITY_AGEING (R326). -/
  | priorityAgeing (sett : Nat)
  /-- SWAP_OUT_DECISION (R328). -/
  | swapOutDecision (sett : Nat)
  /-- CLUSTER_REALLOCATION (R323). -/
  | clusterReallocation (sett : Nat)
  /-- CREW_END (R177). -/
  | crewEnd (crew : Nat)
  /-- SWAP_OUT_STOP (R383). -/
  | swapOutStop (sett : Nat) (record : Nat)
  /-- SWAP_OUT_DRAIN_DONE (R384). -/
  | swapOutDrainDone (sett : Nat) (record : Nat)
  /-- SWAP_OUT_CLOSE_DONE (R383). -/
  | swapOutCloseDone (sett : Nat) (record : Nat)
  /-- SWAP_OUT_IMAGE_WRITTEN (R387). -/
  | swapOutImageWritten (sett : Nat) (record : Nat)
  /-- SWAP_OUT_FREE (R383). -/
  | swapOutFree (sett : Nat) (record : Nat)
  /-- REED_REPORT (R411). -/
  | reedReport (core : Nat)
  /-- ROLLBACK_RESTORE_DONE (R416). -/
  | rollbackRestoreDone (core : Nat)
  /-- RECOVERY_SPAN_END (R420). -/
  | recoverySpanEnd (core : Nat)
  /-- RELAUNCH_CATCHUP_END (R428). -/
  | relaunchCatchupEnd (sett : Nat) (record : Nat)
  /-- PATROL_SCRUB (R423). -/
  | patrolScrub (sett : Nat)
  /-- CONVERTER_CALIBRATION (R432). -/
  | converterCalibration (core : Nat) (array : Nat)
  /-- CALIBRATION_PAUSE (R432). -/
  | calibrationPause (core : Nat) (array : Nat)
  /-- FLIT_RECEIVE (R377). -/
  | flitReceive (link : Nat) (sequence : Nat) (intact : Nat) (payload : Nat)
  /-- NAK_RECEIVE (R377). -/
  | nakReceive (link : Nat) (sequence : Nat)
  /-- LINK_RETRAIN_DONE (R377). -/
  | linkRetrainDone (link : Nat) (success : Nat)
  /-- LINK_BRINGUP (R378). -/
  | linkBringup (link : Nat) (peer : Nat) (success : Nat)
  /-- LINK_KEY_UPDATE (R450). -/
  | linkKeyUpdate (link : Nat)
  /-- POWER_ON (R452). -/
  | powerOn
  /-- SETT_RESET (R13). -/
  | settReset (sett : Nat)
  /-- GET_VERSION (R449). -/
  | getVersion (session : Nat)
  /-- GET_CAPABILITIES (R449). -/
  | getCapabilities (session : Nat)
  /-- NEGOTIATE_ALGORITHMS (R449). -/
  | negotiateAlgorithms (session : Nat)
  /-- GET_DIGESTS (R449). -/
  | getDigests (session : Nat)
  /-- GET_CERTIFICATE (R447). -/
  | getCertificate (session : Nat) (die : Nat)
  /-- CHALLENGE (R449). -/
  | challenge (session : Nat)
  /-- GET_MEASUREMENTS (R448). -/
  | getMeasurements (session : Nat)
  /-- KEY_EXCHANGE (R450). -/
  | keyExchange (session : Nat)
  /-- FINISH (R450). -/
  | finish (session : Nat)
  /-- KEY_UPDATE (R450). -/
  | keyUpdate (session : Nat)
  /-- END_SESSION (R449). -/
  | endSession (session : Nat)
  /-- KEY_LOAD (R454). -/
  | keyLoad (sett : Nat) (slot : Nat) (key : Nat)
  /-- KEY_CLEAR (R455). -/
  | keyClear (sett : Nat) (slot : Nat)
  /-- FILTER_ENTRY_WRITE (R456). -/
  | filterEntryWrite (sett : Nat) (entry : Nat) (base : Nat) (limit : Nat)
  /-- DVSEC_READ (R457). -/
  | dvsecRead (sett : Nat) (offset : Nat)
  /-- RAIL_OVERCURRENT (R458). -/
  | railOvercurrent (die : Nat) (rail : Nat)
  /-- CLOCK_RECOVER (R458). -/
  | clockRecover (die : Nat) (rail : Nat)
  /-- THERMAL_TRIP (R459). -/
  | thermalTrip
  /-- SUPPLY_UNDERVOLTAGE (R459). -/
  | supplyUndervoltage
  /-- ILLEGAL_INSTRUCTION (R60). -/
  | illegalInstruction (info : Nat)
  /-- UNKNOWN_OP (R372). -/
  | unknownOp (sett : Nat)
  /-- SWAP_IN_RESTORE_DONE (R391). -/
  | swapInRestoreDone (block : Nat)
  /-- HOST_LINK_DOWN (R421). -/
  | hostLinkDown
deriving DecidableEq, Repr

end Sys2Proof.Machine
end

