-- ==== Sys2Proof/Machine/Tab.lean ====
section
/-! DEFINITION. Sparse tables in canonical form: keys strictly rising, no entry equal to the default value. Memory is
such a table of bytes. -/

namespace Sys2Proof.Machine

/-- The value at a key; the default where the table lists nothing. -/
def Tab.get {β : Type} (d : β) : Tab β → Nat → β
  | [], _ => d
  | (k, v) :: t, i => if i = k then v else Tab.get d t i

/-- Put a value at a key. -/
def Tab.ins {β : Type} (i : Nat) (v : β) : Tab β → Tab β
  | [] => [(i, v)]
  | (k, w) :: t => if i < k then (i, v) :: (k, w) :: t else if i = k then (i, v) :: t else (k, w) :: Tab.ins i v t

/-- Write a value; writing the default removes the entry. -/
def Tab.set {β : Type} [DecidableEq β] (d : β) (t : Tab β) (i : Nat) (v : β) : Tab β :=
  if v = d then t.filter (fun p => p.1 != i) else Tab.ins i v t

/-- Keys from `lo` up, strictly rising, and no default value. -/
def Tab.wfFrom {β : Type} [DecidableEq β] (d : β) : Nat → Tab β → Bool
  | _, [] => true
  | lo, (k, v) :: t => decide (lo ≤ k) && decide (v ≠ d) && Tab.wfFrom d (k + 1) t

/-- The canonical form. -/
def Tab.wf {β : Type} [DecidableEq β] (d : β) (t : Tab β) : Bool := Tab.wfFrom d 0 t

/-- The listed keys. -/
def Tab.keys {β : Type} (t : Tab β) : List Nat := t.map Prod.fst

/-- Change the value at a key. -/
def Tab.modify {β : Type} [DecidableEq β] (d : β) (t : Tab β) (i : Nat) (f : β → β) : Tab β :=
  Tab.set d t i (f (Tab.get d t i))

/-- The first number from 0 up that is no listed key (tables are sorted). -/
def Tab.freshFrom {β : Type} : Nat → Tab β → Nat
  | n, [] => n
  | n, (k, _) :: t => if k = n then Tab.freshFrom (n + 1) t else n

/-- Memory: bytes by address; what an unlisted address reads as is `memDefault`. -/
abbrev Memory := Tab Byte

/-- What a byte that nothing has written reads as (log 3). -/
def memDefault : Byte := 0

/-- The canonical form of memory. -/
def Memory.wf (m : Memory) : Bool := Tab.wf memDefault m

def Memory.read (m : Memory) (a : Nat) : Byte := Tab.get memDefault m a

def Memory.write (m : Memory) (a : Nat) (v : Byte) : Memory := Tab.set memDefault m a v

/-- `n` bytes from an address up as one little-endian number (R67). -/
def Memory.readN (m : Memory) : Nat → Nat → Nat
  | _, 0 => 0
  | a, n + 1 => (Memory.read m a).toNat + 256 * Memory.readN m (a + 1) n

/-- `n` low bytes of a number from an address up, lowest first. -/
def Memory.writeN (m : Memory) : Nat → Nat → Nat → Memory
  | _, 0, _ => m
  | a, n + 1, v => Memory.writeN (Memory.write m a (BitVec.ofNat 8 v)) (a + 1) n (v / 256)

end Sys2Proof.Machine
end

