-- ==== Sys2Proof/Machine/CoreState.lean ====
section
/-! DEFINITION. The state of blocks and cores: scratchpad, tile slots, accumulator rows, the active set, L1, the core
TLB, the range scoreboard, the array sequencer's queue, the post buffer and the strike state. -/

namespace Sys2Proof.Machine

/-- One tile slot (R212). -/
structure Tile where
  /-- byte 64·r + c is the weight of row r and column c -/
  weights : Memory := []
  /-- scale store: key 8·c + b -/
  scales : Tab Nat := []
  /-- rescale span H as coded in R221: 0 is 32 -/
  span : Nat := 0
  /-- NaN marks: key 8·c + first block of the span -/
  nan : Tab Bool := []
  /-- compute mode -/
  compute : Bool := false
  /-- column sums: key 32·c + unit; Wneg is kept as a magnitude (R205) -/
  wpos : Tab Nat := []
  wneg : Tab Nat := []
  sums : Bool := false
deriving DecidableEq, Repr

/-- A scale byte that nothing has written (R212). -/
def scaleDefault : Nat := 0x7F

def Tile.init : Tile := {}

/-- One block of a gang (R315, R327). -/
structure Block where
  live : Bool := false
  /-- every crew has ended: its arrays are returned (R236) -/
  ended : Bool := false
  sett : Nat := 0
  /-- launch record of the gang -/
  gangRec : Nat := 0
  /-- BLOCKID -/
  bid : Nat := 0
  /-- global core -/
  core : Nat := 0
  regs : Nat := 0
  crews : Nat := 0
  /-- declared scratchpad bytes S (R244) -/
  scratch : Nat := 0
  /-- tile slots T -/
  arrays : Nat := 0
  /-- accumulator rows Q -/
  accum : Nat := 0
  l1 : Nat := 0
  /-- scratchpad bytes -/
  pad : Memory := []
  slots : Tab Tile := []
  /-- accumulator store: key 64·row + word -/
  acc : Tab Word := []
  /-- writes of the last strike window to the scratchpad: cycle, offset, bytes (R280) -/
  young : List (Nat × Nat × Nat) := []
  /-- release tags of scratchpad words by set: (word offset, crew identity, epoch), newest first (R285) -/
  tags : Tab (List (Nat × Nat × Nat)) := []
  /-- poisoned 64-byte sectors of the scratchpad, from 2^16 on of the tile slots, and from 2^17 on rows of the accumulator store (R421,
  R422) -/
  poison : List Nat := []
  /-- cycle from which its crews may run (R238) -/
  readyAt : Nat := 0
deriving DecidableEq, Repr

def Block.init : Block := {}

/-- An entry of the active set (R18). -/
structure Active where
  crew : Nat
  entered : Nat
deriving DecidableEq, Repr

/-- A line of the L1 partition, 128 bytes (R254). Words that are present, by index 0 to 31. -/
structure L1Line where
  /-- global line number: the sett's memory and the address above bit 6 -/
  line : Nat
  words : Tab (Option Word) := []
  /-- release tags that its words had when they came from their home (R286) -/
  tags : Tab (Option (Nat × Nat)) := []
  /-- its poisoned sectors, 0 or 1 (R421) -/
  bad : List Nat := []
deriving DecidableEq, Repr

/-- L1 state of a peer sector (R366). -/
inductive SectorSt where
  | i | is | isi | s | si
deriving DecidableEq, Repr

/-- An entry of the range scoreboard (R248): a byte range of virtual addresses as the core sees them. -/
structure Score where
  copy : Nat
  lo : Nat
  hi : Nat
  /-- launch record of the gang whose near window a near range is seen in -/
  gang : Nat := 0
deriving DecidableEq, Repr

/-- A card in the post buffer (R182). -/
structure PostCard where
  crew : Nat
  pc : BitVec 64
  lane : Nat
  /-- the request that reads the card -/
  req : Nat
  /-- the card, once read -/
  card : Option Nat
deriving DecidableEq, Repr

/-- State of a sequencer operation (R231). -/
inductive SeqState where
  | queued | waiting | running | retired
deriving DecidableEq, Repr

/-- One operation in a sequencer's queue (R214 to R235); with multicast, one entry of the same number for each target
core. -/
structure SeqOp where
  id : Nat
  crew : Nat
  /-- lane that supplied the operand -/
  lane : Nat
  pc : BitVec 64
  /-- 1 MLOAD, 2 MMV, 3 MMG, 4 ACC, 5 AMODE -/
  form : Nat
  /-- virtual address of the parameter block; AMODE: the word A -/
  addr : Nat
  /-- AMODE's requested mode is compute -/
  compute : Bool := false
  /-- core that issued the operation -/
  home : Nat
  /-- block whose slots and rows it names here -/
  block : Nat
  /-- core in whose queue the entry stands -/
  core : Nat
  issued : Nat := 0
  /-- the parameter block as one number, once read -/
  params : Option Nat := none
  /-- lists of an MMG, once read -/
  gather : List Nat := []
  scatter : List Nat := []
  state : SeqState := .queued
  /-- rows committed, or slots finished (R231) -/
  done : Nat := 0
  /-- vector or list entry whose planes are converted -/
  vec : Nat := 0
  /-- next vector whose inputs are fetched -/
  fetched : Nat := 0
  /-- inputs of vectors: (vector, elements, scales) -/
  inputs : List (Nat × List Nat × List Nat) := []
  /-- planes of `vec` are being converted -/
  converting : Bool := false
  /-- Shat in sixteenths of the vector in progress: keys ((slot·64 + column)·32 + group)·8 + plane -/
  planes : Tab Int := []
  /-- start values of the accumulation, read at the gate decision: key 64·chain + column -/
  starts : Tab Word := []
  /-- results decided by the gate: key 64·chain + column -/
  skips : Tab (Option Word) := []
  /-- vector in SUM or COMMIT, and its rows: key 64·chain + column -/
  sumv : Nat := 0
  sums : Tab Word := []
  /-- gate-timing bit as sampled at the start (R209) -/
  gateTiming : Bool := false
  stamp : Stamp := {}
  frontier : Frontier := {}
  /-- at the issuing core: targets, a bit per cluster core, that have not retired, that were reached and that were not
  (R226) -/
  targets : Nat := 0
  reached : Nat := 0
  missed : Nat := 0
  /-- lowest reason of R216 found -/
  reason : Option Nat := none
  /-- the operation was stopped (R232) and waits for its resumption -/
  stopped : Bool := false
  /-- the step that waits for a translation or a fault -/
  parkedOn : Option Event := none
  /-- its fault was answered with failure (R343) -/
  failed : Bool := false
  /-- fault buffer entry of its reason 9, which TRET frees (R347) -/
  entry : Option Nat := none
  /-- its tile-parameter trap has been raised (R216) -/
  trapped : Bool := false
  /-- at the issuing core: vectors fetched once for every target (R226): (vector, elements, scales) -/
  shared : List (Nat × List Nat × List Nat) := []
  /-- a write of it was refused and told (R292) -/
  told : Bool := false
  /-- sticky bits that STATUS takes when the operation leaves its counter (R136) -/
  flags : NearFlags := {}
deriving DecidableEq, Repr

/-- An ACC that writes memory, or may (R218). -/
def SeqOp.writesMem (o : SeqOp) : Bool :=
  o.form = 4 && (match o.params with | some p => p / 16 % 16 = 2 | none => true)

/-- One core. -/
structure Core where
  active : Tab (Option Active) := []
  /-- cycle until which an active-set entry is unavailable (R18) -/
  entryBusy : Tab Nat := []
  /-- cycle until which a slot issues nothing else (R20) -/
  slotBusy : Tab Nat := []
  /-- L1 partition in KiB (R237) -/
  l1Size : Nat := 0
  /-- sectors on their way from a peer home: (sector, bytes, release tags by word of the sector) (R286, R364) -/
  arriving : List (Nat × Nat × List (Nat × Nat × Nat)) := []
  /-- lines, most recently used first -/
  l1 : List L1Line := []
  /-- peer sectors by global sector number -/
  sectors : Tab SectorSt := []
  /-- core TLB, most recently used first (R338) -/
  tlb : List TlbEntry := []
  score : List Score := []
  /-- copy that took the last piece of the copy engine (R264) -/
  lastCopy : Nat := 0
  seq : List SeqOp := []
  post : List PostCard := []
  /-- leases that this core lends: (crew, lease index) (R251) -/
  lent : List (Nat × Nat) := []
  /-- copies in the copy engine, oldest first, with the cycle at which the route is free -/
  copies : List Nat := []
  routeFree : Nat := 0
  /-- cycle at which issue resumes after a rollback (R416) -/
  restoring : Option Nat := none
  /-- rollback point of the restoration in progress (R416) -/
  point : Nat := 0
  /-- cycles of issue that are left of the recovery span, plus 1; 0 outside it (R420) -/
  recoveryLeft : Nat := 0
  /-- cycles of reed events (R419) -/
  strikes : List Nat := []
  fenced : Bool := false
  /-- cycle from which the core is idle-waiting (R261) -/
  idleFrom : Option Nat := none
  /-- hang reports already made for (record, threshold) (R263) -/
  reported : List (Nat × Nat) := []
  /-- 0 awake, 1 clocks gated, 2 power gated, 3 waking (R261, R262) -/
  gate : Nat := 0
  /-- arrays retired (R433) -/
  retired : Nat := 0
  /-- cycle of the last calibration of every array, by start-up or WAKE, and of each array's own last calibration or pause (R432) -/
  lastCal : Nat := 0
  calibrated : Tab Nat := []
  /-- first cycle whose slot of the cluster wheel no transfer to or from this core's scratchpad has taken (R329) -/
  wheel : Nat := 0
deriving DecidableEq, Repr

def Core.init : Core := {}

/-- Places of the sequencer's queue in use (R214). -/
def Core.queueUsed (c : Core) : Nat := (c.seq.filter (fun o => o.state != .retired)).length

end Sys2Proof.Machine
end

