-- ==== Sys2Proof/Machine/MemState.lean ====
section
/-! DEFINITION. Requests in flight, copies, walks and the other numbered activities that carry an access from its
issue to the place that performs it. -/

namespace Sys2Proof.Machine

/-- Where a byte of an access lies (R139, R240, R332). -/
inductive Place where
  /-- byte of a register: crew key and byte offset in the crew's registers (R241) -/
  | reg (crew off : Nat)
  /-- byte of a block's scratchpad, already wrapped (R244) -/
  | pad (block off : Nat)
  /-- byte of a block's tile slots (R243) -/
  | tile (block off : Nat)
  /-- the gap: reads zero, writes nothing (R244) -/
  | gap
  /-- the HBM of a sett of the package, by sett-physical address -/
  | hbm (sett addr : Nat)
  /-- host memory -/
  | host (addr : Nat)
  /-- another module's memory, through window w of the own sett (R351) -/
  | remote (window off : Nat)
deriving DecidableEq, Repr

/-- What an address names: its place and the attributes its page gives (R334). -/
structure Target where
  place : Place
  key : Nat := 0
  ks : Bool := false
  rep : Bool := false
  sh : Bool := false
  buf : Nat := 0
  cache : Nat := 0
  /-- window of the own sett through which the access goes; the own sett's windows included (R361) -/
  window : Option Nat := none
  /-- level at which the walk found the leaf (R342) -/
  level : Nat := 0
  /-- of a shadowed page: the access goes to the frame that is not visible (R268), and the frame that it was given is the second one -/
  shadow : Bool := false
  second : Bool := false
deriving DecidableEq, Repr

/-- One lane's part of a request. -/
structure LaneReq where
  lane : Nat
  /-- which aligned 64-bit half of a 128-bit access (R148) -/
  half : Nat := 0
  va : Nat
  /-- none while the translation is in progress or parked -/
  target : Option Target
  /-- store data, or operands: w in the low part, w' of CAS above it -/
  data : Nat := 0
  /-- value read -/
  value : Nat := 0
  /-- sibling count or number collapsed -/
  aux : Nat := 0
  /-- performed at its point of coherence -/
  done : Bool := false
  /-- the value has arrived -/
  back : Bool := false
  /-- cycle of the lane's next step -/
  due : Nat := 0
  /-- waits for a peer sector's data or an answer from outside -/
  wait : Bool := false
  /-- has left the core (R249, R280) -/
  out : Bool := false
  /-- needs no clearance of the strike window (R280) -/
  free : Bool := false
  /-- served by L1 -/
  hit : Bool := false
deriving DecidableEq, Repr

/-- What a request does. -/
inductive ReqKind where
  | load | lda | ldk | store | stl
  | rcn (mode : Nat) (x : Bool)
  | atom (op : Nat) (wide returns order : Bool)
  | dqPush | dqPop | dqSteal
  | binit | arv (rlx : Bool) | bexp
  | evict | post | tlbinv | spill | fill | publ | pref
deriving DecidableEq, Repr

/-- A request in flight. -/
structure Req where
  kind : ReqKind
  crew : Nat
  pc : BitVec 64
  /-- bytes of one lane's access; of a 128-bit one, of each half (R148) -/
  size : Nat
  /-- size field of R51 -/
  zfield : Nat := 0
  hint : Nat := 0
  scope : Nat := 0
  /-- destination: crew register (not window-relative), width, count -/
  dst : Nat := 0
  width : Nat := 0
  cnt : Nat := 0
  /-- symbol of a deferring load (R89) -/
  sym : Option Nat := none
  lanes : List LaneReq
  issued : Nat
  /-- 1 in flight, 2 a put that has left the own sett's port and that no release awaits (R353), 3 performed and waiting
  for acknowledgements (R368) -/
  phase : Nat := 1
  stamp : Stamp := {}
  frontier : Frontier := {}
  /-- requests that must be performed, or at .pkg and wider complete, before this one (R273) -/
  deps : List Nat := []
  /-- invalidations still awaited by the collector (R368) -/
  awaiting : Bool := false
  /-- waits in the crew's egress queue (R93) -/
  queued : Bool := false
  /-- release tags read (R286) -/
  tags : List (Nat × Nat) := []
  /-- the instruction releases, or acquires, at its scope (R271) -/
  release : Bool := false
  acquire : Bool := false
  /-- AMODE's or PUBL's copy group -/
  group : Nat := 0
  /-- the crew has had its deferred trap for a refusal of this instruction (R292) -/
  told : Bool := false
  /-- cycles that misses of the register cache add to its latency (R24) -/
  late : Nat := 0
  /-- sticky bits that STATUS takes when the request leaves its counter (R136) -/
  flags : NearFlags := {}
  /-- an access of another module at its home here: 1 + its link, and the message that brought it (R353, R378) -/
  agent : Nat := 0
  message : Nat := 0
  /-- an engine write of poisoned data: it poisons the sectors that it writes (R422) -/
  poison : Bool := false
deriving DecidableEq, Repr

/-- The instruction whose requests one copies-counter increase stands for (R167). -/
structure Group where
  crew : Nat
  left : Nat
deriving DecidableEq, Repr

/-- One copy in flight (R168, R264). -/
structure Copy where
  crew : Nat
  core : Nat
  pc : BitVec 64
  lane : Nat
  group : Nat
  /-- descriptor as one number (R168) -/
  desc : Nat
  /-- barrier, or a PUT's counter (R170, R172) -/
  barrier : Nat
  put : Bool
  /-- cycle in which it started -/
  started : Option Nat := none
  /-- reachable targets and unreachable ones, a bit per cluster core (R267) -/
  reached : Nat := 0
  missed : Nat := 0
  /-- number of the next piece, and its row and byte of the row -/
  piece : Nat := 0
  row : Nat := 0
  off : Nat := 0
  /-- pieces taken and not yet performed -/
  flying : Nat := 0
  /-- a non-replayable fault ended it: fault buffer entry (R170) -/
  fault : Option Nat := none
  parked : Bool := false
  stamp : Stamp := {}
  frontier : Frontier := {}
  refused : Bool := false
  /-- bytes that have landed and are not counted yet: (cluster core, bytes); they follow the crew's earlier barrier instructions
  (R163) -/
  owed : List (Nat × Nat) := []
  /-- sticky bits that STATUS takes when the copy retires (R136) -/
  flags : NearFlags := {}
deriving DecidableEq, Repr

/-- Kinds of access for permissions (R342). -/
inductive Access where
  | read | write | atomic | fetch
deriving DecidableEq, Repr

/-- Who waits for a translation, or for a fault buffer entry (R341). An engine's access keeps its own kind and address. -/
inductive Waiter where
  /-- threads of a crew at an instruction, since a cycle -/
  | threads (crew : Nat) (pc : BitVec 64) (lanes : LaneMask) (since : Nat)
  /-- a deferring load -/
  | load (req : Nat)
  | copy (id : Nat) (acc : Access) (va : Nat)
  | seq (core op : Nat) (acc : Access) (va : Nat)
  /-- lanes of a PREF -/
  | prefetch (req : Nat)
  /-- a crew whose access met a fault where it was performed: it takes a deferred trap of a code once the entry is written; the
  access was issued in a cycle -/
  | late (crew : Nat) (pc : BitVec 64) (code issued : Nat)
deriving DecidableEq, Repr

/-- A page walk in progress (R338). -/
structure Walk where
  sett : Nat
  core : Nat
  va : Nat
  access : Access
  started : Nat
  waiters : List Waiter
  /-- restarted by an invalidation (R339) -/
  again : Bool := false
  /-- the translation that the shared TLB holds (R338) -/
  hit : Option Leaf := none
  /-- one of the 64 walkers reads the tables, or the shared TLB answers; otherwise the walk waits for a walker (R338) -/
  running : Bool := true
deriving DecidableEq, Repr

/-- A fault buffer entry (R342) with the accesses parked on it. -/
structure FaultEntry where
  va : Nat := 0
  pc : Nat := 0
  stamp : Nat := 0
  value : Nat := 0
  lanes : Nat := 0
  gangRec : Nat := 0
  block : Nat := 0
  crew : Nat := 0
  core : Nat := 0
  seq : Nat := 0
  pst : Bool := false
  kind : Nat := 0
  access : Nat := 0
  level : Nat := 0
  agent : Nat := 0
  rp : Bool := false
  /-- 0 open, 1 retry, 2 fail, 3 free -/
  res : Nat := 3
  opened : Nat := 0
  waiters : List Waiter := []
deriving DecidableEq, Repr

def FaultEntry.init : FaultEntry := {}

/-- A fault on its way to the fault unit, with the issue order of its instruction among those of its core and agent (R341). -/
structure Arrival where
  fault : FaultEntry
  order : Nat
deriving DecidableEq, Repr

/-- A miss of a core TLB that waits for a free entry of the miss table (R338). -/
structure Miss where
  core : Nat
  va : Nat
  access : Access
  waiter : Waiter
deriving DecidableEq, Repr

/-- An outstanding TLB invalidation (R183). -/
structure TlbInv where
  req : Nat
  crew : Nat
  va : Nat
  scope : Nat
  /-- setts still to acknowledge -/
  left : List Nat
  /-- lane of the request -/
  lane : Nat := 0
  /-- mask of the setts acknowledged by reset -/
  byReset : Nat := 0
  /-- setts that applied it: (sett, log2 of the largest page removed, cycle) -/
  applied : List (Nat × Nat × Nat) := []
deriving DecidableEq, Repr

/-- A directory entry (R362) with the queue of its sectors in OW (R365). -/
structure DirEntry where
  /-- state of each sector: 0 I, 1 S, 2 O, 3 OW -/
  sst : List Nat := [0, 0, 0, 0]
  coarse : Bool := false
  ptrs : List Nat := []
  groups : Nat := 0
  /-- 0 none, 1 host, 2 to 9 the port of sett 0 to 7 -/
  own : Nat := 0
  /-- requests waiting for a sector in OW: (sector, event) -/
  queue : List (Nat × Event) := []
  used : Nat := 0
deriving DecidableEq, Repr

def DirEntry.init : DirEntry := {}

/-- An ack collector entry (R368). -/
structure Collector where
  expected : Nat
  got : Nat
  /-- global cores that the Invs name, and the sectors -/
  names : List Nat := []
  sectors : List Nat := []
  /-- counts of InvAcks on their way -/
  acks : List Nat := []
  /-- the write's request, or a copy piece -/
  req : Option Nat
deriving DecidableEq, Repr

/-- A sibling record (R289): the primary's stamp and the siblings in stamp order; the primary's value is in
memory. -/
structure CellRec where
  /-- device generation of the home in which the record was last written (log 16) -/
  gen : Nat
  pstamp : Stamp
  sibs : List (Stamp × Word)
  /-- an error in the record that is not corrected: the whole record counts as poisoned (R421) -/
  bad : Bool := false
deriving DecidableEq, Repr

/-- An event due in a cycle; events of one cycle are taken by ascending key, then in the order they were made. -/
structure Timed where
  due : Nat
  key : Nat
  ev : Event
deriving DecidableEq, Repr

/-- An outside input that a rollback keeps and applies again (R417); `started` is the start of the own core's copy that
wrote, 0 for what other cores and the hub did. -/
inductive Redo where
  /-- bytes written to a scratchpad -/
  | pad (started block off n value : Nat)
  /-- bytes written to tile slots -/
  | tile (started block off n value : Nat)
  /-- an update of a barrier object: 1 ARV, 2 BEXP, 3 bytes landed, 4 broken -/
  | barrier (started block off kind amount : Nat)
  /-- a response to a request, as it ended -/
  | response (id : Nat) (r : Req)
  /-- a copy that retired -/
  | copied (id : Nat) (c : Copy)
  /-- a collective of a crew that ended: its copies group and handle -/
  | ended (crew group handle : Nat)
  /-- a deferred trap that something outside raised for an instruction issued in a cycle -/
  | trap (issued crew : Nat) (d : Deferred)
deriving DecidableEq, Repr

/-- A core's own state at the start of a cycle (R414): crews, blocks, the core, the events of its own units, and the crews'
requests, copies and groups as they stood. -/
structure Snap where
  crews : List (Nat × Crew)
  blocks : List (Nat × Block)
  core : Core
  events : List Timed
  reqs : List (Nat × Req)
  copies : List (Nat × Copy)
  groups : List (Nat × Group)
deriving DecidableEq, Repr

/-- What the journal holds of one cycle (R414, R417). -/
structure JEntry where
  cycle : Nat
  snap : Option Snap
  redo : List Redo
  /-- entries that the changes of the cycle take (R414), once the next snapshot is taken -/
  used : Nat
deriving DecidableEq, Repr

end Sys2Proof.Machine
end

