-- ==== Sys2Proof/Machine/SettState.lean ====
section
/-! DEFINITION. The state of one sett's base die (host-queue engine, home slices, translation, fabric port) and of
the package's shared parts: links, power, hibernation. -/

namespace Sys2Proof.Machine

/-- Spans of a sett (R13); the recovery span is held by cores and launch records. -/
inductive Span where
  | startUp | service | suspension
deriving DecidableEq, Repr

/-- What a launch record's gang is doing. -/
inductive GangSt where
  | free | placed | swapped | awaiting
deriving DecidableEq, Repr

/-- A launch record (R319) and the engine's own notes on its gang. -/
structure LaunchRec where
  card : Nat := 0
  spill : Nat := 0
  gang : Nat := 0
  ganggen : Nat := 0
  tries : Nat := 0
  gt : Bool := false
  recov : Bool := false
  catch_ : Nat := 0
  gbar : Nat := 0
  vclus : Nat := 0
  cores : Nat := 0
  st : GangSt := .free
  /-- launch of the gang -/
  launch : Nat := 0
  queue : Nat := 0
  /-- kernel descriptor as started (R315) -/
  kdesc : Nat := 0
  /-- effective region values the launch was started with (R311): handler, priority, relaunches, kill scope, hang
  thresholds, translation control -/
  handler : Nat := 0
  prio : Nat := 0
  relaunch : Nat := 0
  kill : Nat := 0
  th1 : Nat := 28
  th2 : Nat := 32
  xlate : Bool := false
  rcb : Nat := 0
  /-- cycle of its last placement, and of the first one of this attempt (R428) -/
  placedAt : Nat := 0
  firstAt : Nat := 0
  /-- cycles that the attempt ran before its last swap-out, and the cycle from which it runs again (R428) -/
  ran : Nat := 0
  runFrom : Nat := 0
  /-- cycle of its swap-out, or from which it waits -/
  waitFrom : Nat := 0
  /-- address of its context image while swapped out -/
  image : Nat := 0
  /-- the gang generation to start with is one more than the kept one (R287) -/
  reuse : Bool := false
  /-- blocks of the image that are not restored yet (R391) -/
  restoring : Nat := 0
deriving DecidableEq, Repr

def LaunchRec.init : LaunchRec := {}

/-- Effective values of a region (R309, R310). -/
structure Region where
  handler : Nat := 0
  spill : Nat := 0
  slots : Nat := 0
  clusters : Nat := 0
  store : Nat := 0
  queues : Nat := 0
  arrays : Nat := 0
  prio : Nat := 0
  kill : Nat := 0
  relaunch : Nat := 0
  th1 : Nat := 28
  th2 : Nat := 32
  xlate : Bool := false
deriving DecidableEq, Repr

/-- A running launch (R318, R322). -/
structure Launch where
  card : Nat
  queue : Nat
  gangs : Nat
  placed : Nat
  ended : Nat
  failed : Bool
  started : Nat
  index : Nat
  /-- region block of the card's queue, and the region's values at the start (R311) -/
  rcb : Nat := 0
  region : Region := {}
  /-- kernel descriptor as started (R315) -/
  kdesc : Nat := 0
  /-- index of the card in its queue -/
  at_ : Nat := 0
  /-- writes of ended gangs that are not complete yet (R322) -/
  puts : List Nat := []
deriving DecidableEq, Repr

/-- The engine's notes on one queue (R312, R313, R318). -/
structure QueueSt where
  /-- the queue's enabling was admitted (R310, R311) -/
  admitted : Bool := false
  /-- the head card passed its checks -/
  checked : Bool := false
  /-- what the last read of the head card's dependence counter gave (R318) -/
  dep : Bool := false
  /-- the launch whose gangs are being placed -/
  launch : Option Nat := none
  /-- cycle of the last start or placement (R326) -/
  since : Nat := 0
  errCode : Nat := 0
deriving DecidableEq, Repr

def QueueSt.init : QueueSt := {}

/-- A virtual cluster (R323). -/
structure Cluster where
  holder : Option Nat := none
  leaving : Bool := false
  /-- last cycle with a gang of the stage -/
  used : Nat := 0
deriving DecidableEq, Repr

def Cluster.init : Cluster := {}

/-- Steps of a swap-out (R383). -/
inductive SwapStep where
  | stop | drain | close | write | free
deriving DecidableEq, Repr

/-- A swap-out in progress. -/
structure Swap where
  gangRec : Nat
  step : SwapStep
  started : Nat
  image : Nat
  size : Nat
  /-- the candidate it makes room for: a queue, 16384 + a record, or none (R328) -/
  candidate : Option Nat := none
deriving DecidableEq, Repr

/-- A window table entry (R351). -/
structure Window where
  handle : Nat := 0
  size : Nat := 0
  link : Nat := 0
  r : Bool := false
  p : Bool := false
  a : Bool := false
  /-- 0 free, 1 valid, 2 stale -/
  st : Nat := 0
  /-- an UNIMPORT waits for the accesses in flight, since a cycle -/
  closing : Bool := false
  closedAt : Nat := 0
deriving DecidableEq, Repr

def Window.init : Window := {}

/-- An update of a replica area on its way to a member or in its reorder buffer (R356). -/
structure Update where
  number : Nat
  off : Nat
  bytes : Nat
  value : Nat
  key : Nat
  /-- release tag of the write: crew identity and epoch (R285) -/
  tag : Option (Nat × Nat)
  /-- 64 · request + part of the write -/
  writer : Nat
deriving DecidableEq, Repr

/-- A replica area (R355) with the updates not yet applied here. -/
structure Area where
  base : Nat := 0
  size : Nat := 0
  next : Nat := 0
  members : Nat := 0
  seqr : Nat := 0
  v : Bool := false
  /-- updates sent by the sequencer and not yet applied here -/
  pending : List Update := []
deriving DecidableEq, Repr

def Area.init : Area := {}

/-- A group table entry (R379). -/
structure GroupEntry where
  ranks : Nat := 0
  attempt : Nat := 0
  me : Nat := 0
  n : Nat := 0
  /-- collectives started here at the current attempt -/
  issued : Nat := 0
  /-- packets kept in receive credit: (attempt, sequence, rank, data) (R380) -/
  held : List (Nat × Nat × Nat × Nat) := []
  v : Bool := false
deriving DecidableEq, Repr

def GroupEntry.init : GroupEntry := {}

/-- A collective in a slot of the engine (R174). -/
structure Coll where
  crew : Nat
  group : Nat
  attempt : Nat
  op : Nat
  type : Nat
  red : Nat
  send : Nat
  recv : Nat
  count : Nat
  doneCtr : Nat
  copyGroup : Nat
  /-- contributions that arrived: (rank, data) -/
  got : List (Nat × Nat)
  /-- place of the collective among those of its group and attempt -/
  seq : Nat
  pc : BitVec 64
  lane : Nat
  stamp : Stamp
  frontier : Frontier
  /-- it was aborted: its receive buffer becomes unpredictable (R381) -/
  aborted : Bool := false
  /-- a refusal of R291 was reported to the crew (R292) -/
  told : Bool := false
deriving DecidableEq, Repr

/-- An outbound filter entry (R456). -/
structure Filter where
  base : Nat := 0
  limit : Nat := 0
  w : Bool := false
  r : Bool := false
  en : Bool := false
deriving DecidableEq, Repr

def Filter.init : Filter := {}

/-- One sett. -/
structure Sett where
  span : Span := .startUp
  /-- SETBASE values by selector (R372); those without an entry are `setbaseDefault` -/
  setbase : Tab Nat := []
  /-- device generation (R287) -/
  devgen : Nat := 1
  /-- cycle in which the sett left reset, from which its clusters count the slots of their wheels (R329) -/
  outOfReset : Nat := 0
  /-- cycle in which the count of R137 was 0; a WAKE moves it -/
  timeZero : Int := 0
  records : Tab LaunchRec := []
  launches : List Launch := []
  nextLaunch : Nat := 0
  queues : Tab QueueSt := []
  /-- queue that holds every start back for its GEN barrier (R320) -/
  genHold : Option Nat := none
  clusters : Tab Cluster := []
  /-- cached region control blocks: the 128 bytes plus 1, by address (R311) -/
  rcbs : Tab Nat := []
  swaps : List Swap := []
  /-- context area units in use: (address, size) (R382) -/
  contexts : List (Nat × Nat) := []
  /-- registrant of a word, core + 1, by word address (R277) -/
  registered : Tab Nat := []
  /-- lines present in the home slices, by address bits above 6 (log 9) -/
  llc : Tab Bool := []
  /-- sibling records by cell address ÷ 4 (R289) -/
  cells : Tab (Option CellRec) := []
  /-- release tags by set: (word address, crew identity, epoch), newest first (R285) -/
  tags : Tab (List (Nat × Nat × Nat)) := []
  /-- home directory by line address bits above 7 (R362), and the victim buffer (R369) -/
  dir : Tab DirEntry := []
  victims : List Nat := []
  collectors : Tab (Option Collector) := []
  /-- shared TLB and walk cache, most recently used first (R338) -/
  stlb : List TlbEntry := []
  wcache : List (Nat × Nat × Nat) := []
  faults : Tab FaultEntry := []
  /-- faults that wait at the walker for a free entry (R341) -/
  faultWait : List FaultEntry := []
  /-- faults that have reached the fault unit in this cycle (R341) -/
  arrivals : List Arrival := []
  /-- deferred traps that fault buffer entries and symbols hold for crews whose list is full or which are swapped out (R348) -/
  trapWait : List (Nat × Deferred) := []
  /-- misses that wait for the shared TLB's miss table (R338) -/
  missWait : List Miss := []
  windows : Tab Window := []
  areas : Tab Area := []
  groups : Tab GroupEntry := []
  colls : Tab (Option Coll) := []
  /-- BAR0 registers (R371) -/
  cmdBase : Nat := 0
  cmdSize : Nat := 0
  cmdTail : Nat := 0
  cmdHead : Nat := 0
  retryCnt : Nat := 0
  /-- a command is being carried out -/
  cmdBusy : Bool := false
  /-- outbound filter (R456) and accesses checked under earlier values -/
  filter : Tab Filter := []
  /-- key slots 0 to 63: the key as a number (R453) -/
  keys : Tab (Option Nat) := []
  /-- next report number (R424) -/
  reportSeq : Nat := 0
  /-- the record of each unit's corrected errors that more are added to: its cycle, its number, its count (R424) -/
  corrected : Tab (Nat × Nat × Nat) := []
  /-- authenticated at start-up (R451) -/
  authenticated : Bool := false
  /-- the gate-timing bit as the firmware has it in its cores for the self-test (R209, R452) -/
  gateTest : Bool := false
  maintenance : Bool := false
  /-- the port has posted writes to host memory since its last zero-length read, and the cycle in which the reads sent are complete
  (R373) -/
  posted : Bool := false
  flushed : Nat := 0
  /-- last intervals of the cluster reallocation -/
  lastRealloc : Nat := 0
  /-- epoch and sequence of the writers that are no crews: 0 the host, 1 + k link k (R285) -/
  agents : Tab (Nat × Nat) := []
  /-- host interrupts raised by MSI-X vector, oldest first -/
  raised : List Nat := []
deriving DecidableEq, Repr

def Sett.init : Sett := {}

/-- SETBASE values at reset (log 2): no fault service queue, a Mire of 1 GiB. -/
def setbaseDefault (selector : Nat) : Nat :=
  if selector = 5 then 0xFFFF else if selector = 7 then 2 ^ 30 else 0

/-- A Plagil link (R376 to R378). -/
structure Link where
  /-- 0 down, 1 up, 2 retraining -/
  st : Nat := 0
  peer : Nat := 0
  sendSeq : Nat := 0
  recvSeq : Nat := 0
  /-- flits not yet acknowledged: (sequence, flit below its crc), at most 256 (R377) -/
  replay : List (Nat × Nat) := []
  /-- messages that wait for the replay buffer or a retrain: (type, vc, payload) -/
  waiting : List (Nat × Nat × Nat) := []
  /-- NAKs received since the last acknowledgement of a new flit -/
  naks : Nat := 0
  /-- the receiver has sent a NAK and discards until the expected flit -/
  discarding : Bool := false
  /-- flits sent under the traffic key -/
  flits : Nat := 0
  /-- traffic key number (R450) -/
  key : Nat := 0
  latency : Nat := 480
  /-- sectors of the peer's memory that this module's setts hold: (sector, a bit for each sett) (R378) -/
  loaded : List (Nat × Nat) := []
  /-- sectors of this module that the peer has asked for, with the address in its message (R378) -/
  asked : List (Nat × Nat) := []
  /-- Invs that the peer has not acknowledged: (home sett, collector) (R364) -/
  invs : List (Nat × Nat) := []
  /-- collective packets of which the last piece has not come: the pieces' common bits, and the pieces so far, in order (R380) -/
  parts : List (Nat × List Nat) := []
deriving DecidableEq, Repr

def Link.init : Link := {}

/-- An SPDM session (R449, R450), by number: 0 the host's with function 0; 1 to 7 base die 0's with another base die; 8 to 23 a
base die's with its compute dies; from 24 on those of the Plagil links (log 33). -/
structure Session where
  /-- 0 none, 1 version, 2 capabilities, 3 algorithms, 4 key exchange, 5 open -/
  st : Nat := 0
  key : Nat := 0
deriving DecidableEq, Repr

def Session.init : Session := {}

/-- A HIBERNATE or WAKE in progress (R435). -/
structure Hib where
  /-- 0 none, 1 pre-empt, 2 collectives, 3 outward, 4 recall, 5 freeze, 6 image -/
  step : Nat := 0
  accepted : Nat := 0
  extents : Nat := 0
  /-- cycle of the cut -/
  cut : Nat := 0
deriving DecidableEq, Repr

/-- Power and heat (R458, R459). -/
structure Power where
  /-- the input supply is within its range and the rails are up -/
  on : Bool := false
  /-- rails that stay above their limit, 4 · die + rail; such a die's clock is halved -/
  halved : List Nat := []
  tripped : Bool := false
  locked : Bool := false
deriving DecidableEq, Repr

/-- A message to the outside, in the order sent (log 4). -/
inductive OutMsg where
  /-- a whole flit (R376) -/
  | flit (link flit : Nat)
  | nak (link seq : Nat)
  | spdm (session code value : Nat)
  /-- an ATS invalidation of a translation that the host holds for a sett (R183) -/
  | ats (sett addr : Nat)
  | cxl (sett code addr value : Nat)
deriving DecidableEq, Repr

end Sys2Proof.Machine
end

