-- ==== Sys2Proof/Machine/State.lean ====
section
/-! DEFINITION. The state of the module, the stops, and the state after reset. -/

namespace Sys2Proof.Machine

/-- Why the machine stops. `unpowered`: raised by `step` where the module has no power (R459: the rails are removed and
all device state is lost, until a power cycle, which is the event POWER_ON); safe: nothing can be claimed of a module
that does not run. -/
inductive Fault where
  | unpowered
deriving DecidableEq, Repr

/-- Why a step has no meaning. `notModelled`: an instruction without a meaning yet, raised by exec alone; safe. -/
inductive Refusal where
  | notModelled (mnemonic : String)
deriving DecidableEq, Repr

/-- One path chosen to issue in the current cycle (R21, R23). -/
structure Issue where
  crew : Nat
  pc : BitVec 64
  lanes : LaneMask
  /-- the crew's registers as they stood before any instruction of this cycle wrote them (R132) -/
  before : Tab Slot
  slot : Nat
deriving DecidableEq, Repr

/-- The module: one package with eight setts (R1 to R3), its memories and links. Crews are keyed
((sett·2048 + record)·4 + block)·32 + CREWID, blocks (sett·2048 + record)·4 + block, cores 128·sett + core. -/
structure State where
  /-- core-clock cycles since power-on -/
  cycle : Nat
  /-- issues of the current cycle still to be executed (log 4) -/
  turn : List Issue
  /-- the issue whose instruction is being executed -/
  cur : Option Issue
  /-- the issues of the current cycle have been chosen (log 4) -/
  planned : Bool
  /-- events to come, by due cycle and key (log 4) -/
  agenda : List Timed
  /-- counter of free values drawn (log 5); the model's own -/
  draws : Nat
  crews : Tab Crew
  blocks : Tab Block
  cores : Tab Core
  setts : Tab Sett
  /-- HBM of the package: sett·2^37 + sett-physical address (R332) -/
  hbm : Memory
  /-- host memory at bits 50:0 (R332) -/
  hostMem : Memory
  /-- key under which a 64-byte sector of HBM was last written, plus one (R453) -/
  sealed : Tab Nat
  /-- words of HBM that a running launch wrote: (launch, word before), by byte address ÷ 4 (R61) -/
  codeOld : Tab (Option (Nat × Word))
  /-- poisoned 64-byte sectors of HBM (R422) -/
  poison : Tab Bool
  reqs : Tab (Option Req)
  copies : Tab (Option Copy)
  groups : Tab (Option Group)
  walks : Tab (Option Walk)
  invs : Tab (Option TlbInv)
  /-- what each core's journal holds, newest first (R414) -/
  journals : Tab (List JEntry)
  /-- next identifier for requests, copies, groups, walks, operations -/
  nextId : Nat
  links : Tab Link
  sessions : Tab Session
  /-- host link up; CXL.cache enabled; AtomicOps enabled (R370, R374) -/
  hostUp : Bool
  cxlCache : Bool
  atomicOps : Bool
  /-- host lines that a sett's port owns: (sett, line) (R374) -/
  portLines : List (Nat × Nat)
  /-- map generation (R185, R444) -/
  mapgen : Nat
  /-- virtual cluster 32·sett + v to physical cluster of the sett (R444) -/
  clusterMap : Tab Nat
  hib : Hib
  power : Power
  /-- what the context images in HBM say of 128-bit stores beyond their records: upper halves, by the address of the egress entry;
  the model's own (log 27) -/
  imageTails : Tab Nat
  /-- what they say of waiting and sleeping threads beyond their records: by the address of the thread record, and 16 bytes on for the
  thread in the trap frame; the model's own (log 127) -/
  imageWaits : Tab (Option ThreadSt)
  /-- firmware measurements (R448), by die -/
  measurements : Tab Nat
  /-- messages sent to the outside -/
  out : List OutMsg
deriving DecidableEq, Repr

/-- The module right after reset: every sett in start-up (R13), nothing placed, nothing listed, the devices of R287 at
generation 1, and POWER_ON as the one event to come (R452). -/
def State.reset : State where
  cycle := 0
  turn := []
  cur := none
  planned := false
  agenda := [⟨0, 0, .powerOn⟩]
  draws := 0
  crews := []
  blocks := []
  cores := []
  setts := []
  hbm := []
  hostMem := []
  sealed := []
  codeOld := []
  poison := []
  reqs := []
  copies := []
  groups := []
  walks := []
  invs := []
  journals := []
  nextId := 0
  links := []
  sessions := []
  hostUp := true
  cxlCache := false
  atomicOps := false
  portLines := []
  mapgen := 1
  clusterMap := []
  hib := {}
  power := { on := true }
  imageTails := []
  imageWaits := []
  measurements := []
  out := []

end Sys2Proof.Machine
end

