-- ==== Sys2Proof/Machine/Base.lean ====
section
/-! DEFINITION. The named operations over the state's tables: records by key, keys of crews, blocks and cores, the
agenda, memory as a place of bytes, time. -/

namespace Sys2Proof.Machine

/-! ## Records -/

def State.crew (s : State) (k : Nat) : Crew := Tab.get Crew.init s.crews k
def State.block (s : State) (k : Nat) : Block := Tab.get Block.init s.blocks k
def State.core (s : State) (k : Nat) : Core := Tab.get Core.init s.cores k
def State.sett (s : State) (k : Nat) : Sett := Tab.get Sett.init s.setts k
def State.req (s : State) (k : Nat) : Option Req := Tab.get none s.reqs k
def State.copy (s : State) (k : Nat) : Option Copy := Tab.get none s.copies k
def State.link (s : State) (k : Nat) : Link := Tab.get Link.init s.links k

def State.setCrew (s : State) (k : Nat) (c : Crew) : State := { s with crews := Tab.set Crew.init s.crews k c }
def State.setBlock (s : State) (k : Nat) (c : Block) : State := { s with blocks := Tab.set Block.init s.blocks k c }
def State.setCore (s : State) (k : Nat) (c : Core) : State := { s with cores := Tab.set Core.init s.cores k c }
def State.setSett (s : State) (k : Nat) (c : Sett) : State := { s with setts := Tab.set Sett.init s.setts k c }
def State.setReq (s : State) (k : Nat) (r : Option Req) : State := { s with reqs := Tab.set none s.reqs k r }
def State.setCopy (s : State) (k : Nat) (r : Option Copy) : State := { s with copies := Tab.set none s.copies k r }
def State.setLink (s : State) (k : Nat) (l : Link) : State := { s with links := Tab.set Link.init s.links k l }

def State.modCrew (s : State) (k : Nat) (f : Crew → Crew) : State := s.setCrew k (f (s.crew k))
def State.modBlock (s : State) (k : Nat) (f : Block → Block) : State := s.setBlock k (f (s.block k))
def State.modCore (s : State) (k : Nat) (f : Core → Core) : State := s.setCore k (f (s.core k))
def State.modSett (s : State) (k : Nat) (f : Sett → Sett) : State := s.setSett k (f (s.sett k))
def State.modReq (s : State) (k : Nat) (f : Req → Req) : State :=
  match s.req k with | none => s | some r => s.setReq k (some (f r))
def State.modCopy (s : State) (k : Nat) (f : Copy → Copy) : State :=
  match s.copy k with | none => s | some r => s.setCopy k (some (f r))

/-- Apply a step for each element of a list, in order. -/
def forEach {α : Type} (l : List α) (s : State) (f : α → State → State) : State := l.foldl (fun t a => f a t) s

/-- Insertion into a list that a relation orders, after the elements that come before. -/
def insertBy {α : Type} (le : α → α → Bool) (a : α) : List α → List α
  | [] => [a]
  | b :: l => if le b a then b :: insertBy le a l else a :: b :: l

/-- A stable insertion sort. -/
def sortBy {α : Type} (le : α → α → Bool) (l : List α) : List α := l.foldl (fun acc a => insertBy le a acc) []

/-! ## Keys -/

def blockKey (sett gangRec bid : Nat) : Nat := (sett * 2048 + gangRec) * 4 + bid
def crewKey (block idx : Nat) : Nat := block * 32 + idx
def crewBlock (k : Nat) : Nat := k / 32
def blockSett (b : Nat) : Nat := b / 4 / 2048
def blockRec (b : Nat) : Nat := b / 4 % 2048
def blockId (b : Nat) : Nat := b % 4
def crewSett (k : Nat) : Nat := blockSett (crewBlock k)
def crewRec (k : Nat) : Nat := blockRec (crewBlock k)
/-- The 21-bit identity of a crew in stamps and frontiers (R284): (sett, gang, block, crew). -/
def crewIdent (k : Nat) : Nat := crewSett k * 2 ^ 18 + crewRec k * 128 + blockId (crewBlock k) * 32 + k % 32
def coreSett (g : Nat) : Nat := g / 128
/-- The four cores of a core's cluster (R1). -/
def clusterCores (g : Nat) : List Nat := (List.range 4).map (4 * (g / 4) + ·)

def State.record (s : State) (sett r : Nat) : LaunchRec := Tab.get LaunchRec.init (s.sett sett).records r
def State.modRecord (s : State) (sett r : Nat) (f : LaunchRec → LaunchRec) : State :=
  s.modSett sett (fun t => { t with records := Tab.modify LaunchRec.init t.records r f })

/-- Keys of the crews that live on a core, ascending. -/
def State.crewsOn (s : State) (g : Nat) : List Nat :=
  (s.crews.filter (fun p => p.2.live && p.2.core = g)).map Prod.fst

/-- Keys of the blocks that live on a core and have not ended. -/
def State.blocksOn (s : State) (g : Nat) : List Nat :=
  (s.blocks.filter (fun p => p.2.live && !p.2.ended && p.2.core = g)).map Prod.fst

/-- Keys of the blocks of a gang. -/
def State.gangBlocks (s : State) (sett r : Nat) : List Nat :=
  ((List.range 4).map (blockKey sett r)).filter (fun b => (s.block b).live)

/-- Keys of the crews of a gang. -/
def State.gangCrews (s : State) (sett r : Nat) : List Nat :=
  (s.gangBlocks sett r).flatMap (fun b => ((List.range 32).map (crewKey b)).filter (fun k => (s.crew k).live))

/-- The gang's block on a core, if it has one there that has not ended. -/
def State.gangBlockOn (s : State) (sett r g : Nat) : Option Nat :=
  (s.gangBlocks sett r).find? (fun b => !(s.block b).ended && (s.block b).core = g)

/-- The gate-timing bit as a core has it: set by firmware in maintenance mode, or by the launch record of a recovering gang
with a block there (R209). -/
def State.gateBit (s : State) (g : Nat) : Bool :=
  (s.sett (coreSett g)).gateTest || (s.blocksOn g).any (fun b => (s.record (s.block b).sett (s.block b).gangRec).gt)

/-! ## Agenda and identifiers -/

/-- Insert before the first event that comes later. -/
def insertTimed (t : Timed) : List Timed → List Timed
  | [] => [t]
  | u :: us => if t.due < u.due || (t.due = u.due && t.key < u.key) then t :: u :: us else u :: insertTimed t us

/-- An event `delay` cycles from now, with its place among the events of its cycle. -/
def State.scheduleAt (s : State) (delay key : Nat) (ev : Event) : State :=
  { s with agenda := insertTimed ⟨s.cycle + delay, key, ev⟩ s.agenda }

/-- An event `delay` cycles from now, at place `key` among the events of its cycle and `sub`, below 1,024, among those of this
place. -/
def State.scheduleSub (s : State) (delay key sub : Nat) (ev : Event) : State := s.scheduleAt delay (1024 * key + sub) ev

/-- An event `delay` cycles from now, at place `key` among the events of its cycle. -/
def State.schedule (s : State) (delay key : Nat) (ev : Event) : State := s.scheduleSub delay key 0 ev

/-- Drop the events that a condition names. -/
def State.unschedule (s : State) (p : Event → Bool) : State :=
  { s with agenda := s.agenda.filter (fun t => !p t.ev) }

def State.fresh (s : State) : Nat × State := (s.nextId, { s with nextId := s.nextId + 1 })

/-- Draw a free value: the counter's value and the state with the counter advanced (log 5). -/
def State.draw (s : State) : Nat × State := (s.draws, { s with draws := s.draws + 1 })

def State.send (s : State) (m : OutMsg) : State := { s with out := s.out ++ [m] }

/-- A field of a record read as one number (R14, bits(x, hi, lo)). -/
def bits (x hi lo : Nat) : Nat := x / 2 ^ lo % 2 ^ (hi - lo + 1)

/-! ## Plagil links (R376, R377) -/

/-- CRC-32 of IEEE 802.3 over `n` bits of `v`, bit 0 first; the sender's order of bits and its complements are the model's
(log 30). -/
def crc32 (v : Nat) : Nat → Nat → Nat
  | 0, c => 0xFFFFFFFF - c
  | n + 1, c =>
    let d := (c + v) % 2
    crc32 (v / 2) n (if d = 1 then (BitVec.ofNat 32 (c / 2) ^^^ 0xEDB88320#32).toNat else c / 2)

/-- A flit with its crc (R376). -/
def wholeFlit (f : Nat) : Nat := crc32 f 480 0xFFFFFFFF * 2 ^ 480 + f

/-- A flit goes out on a link and stays in the replay buffer; while the buffer is full or the link retrains, it waits. The keys
are replaced after every 2^32 flits (R450). -/
def State.sendFlit (s : State) (l type vc payload : Nat) : State :=
  let k := s.link l
  if k.st = 0 then s
  else if k.st = 2 || 256 ≤ k.replay.length then s.setLink l { k with waiting := k.waiting ++ [(type, vc, payload)] }
  else
    let f := k.sendSeq * 2 ^ 468 + (k.recvSeq + 4095) % 4096 * 2 ^ 456 + type * 2 ^ 452 + vc * 2 ^ 450 + payload % 2 ^ 448
    let s := s.setLink l { k with sendSeq := (k.sendSeq + 1) % 4096, replay := k.replay ++ [(k.sendSeq, f)], flits := k.flits + 1 }
    let s := s.send (.flit l (wholeFlit f))
    if (k.flits + 1) % 2 ^ 32 = 0 then s.schedule 0 97 (.linkKeyUpdate l) else s

/-- Type and virtual channel of a message by its code: the directory's messages keep their order among themselves (R364, R376). -/
def linkChannel (code : Nat) : Nat × Nat :=
  match code with
  | 4 | 5 | 7 => (1, 2)
  | 6 | 10 => (3, 2)
  | 8 => (2, 2)
  | 9 | 12 | 14 => (3, 1)
  | 13 => (2, 3)
  | 15 => (1, 3)
  | _ => (1, 0)

/-- A message for another module through a link. Code 1 write, 2 atomic, 3 reconcile, 4 eviction notice, 5 Inv, 6 InvAck, 7 GetS,
8 data, 9 completion of a write, 10 EvAck, 11 read, 12 fault kind 8, 13 a collective packet, 14 an export is gone, 15 an abort token;
then the virtual sett that holds the memory, the export's index · 2^40 + the offset, and what belongs to the code. The layout in the
payload is the model's (log 30). -/
def State.toLink (s : State) (sett l code addr value : Nat) : State :=
  s.sendFlit l (linkChannel code).1 (linkChannel code).2 (code * 2 ^ 440 + sett % 256 * 2 ^ 432 + addr % 2 ^ 64 * 2 ^ 368 + value % 2 ^ 368)

/-- A message to a virtual sett of another module, `h` its peer handle from bit 49 on (R350), over the first link to that module that is
not down (log 30); without one it is lost. -/
def State.toModule (s : State) (h code addr value : Nat) : State :=
  match (List.range 18).find? (fun l => (s.link l).st != 0 && (s.link l).peer = h / 8) with
  | some l => s.toLink (h % 8) l code addr value
  | none => s

/-- A collective packet for a rank of another module: its bits in pieces of 256, each with the group, the attempt, the rank, the place
of the collective among those of its group, and a mark on the last one (R380, log 30). -/
def State.sendPacket (s : State) (h group attempt seq rank bits v : Nat) : State :=
  let n := (bits + 255) / 256
  forEach (List.range n) s (fun j t => t.toModule h 13 (group + attempt * 2 ^ 8)
    (rank % 2 ^ 12 * 2 ^ 352 + (if j + 1 = n then 2 ^ 351 else 0) + seq % 2 ^ 95 * 2 ^ 256 + v / 2 ^ (256 * j) % 2 ^ 256))

/-- Link of a sett's window. -/
def State.windowLink (s : State) (sett w : Nat) : Nat := (Tab.get Window.init (s.sett sett).windows w).link

/-- A message to what a window of a sett maps, for `n` bytes at an offset: the handle's check, n, the sender's sett, an operand and
data of 320 bits below them (log 30). -/
def State.toWindow (s : State) (own w o code n op v : Nat) : State :=
  let e := Tab.get Window.init (s.sett own).windows w
  s.toLink (bits e.handle 51 49) e.link code (bits e.handle 48 40 * 2 ^ 40 + o % 2 ^ 40)
    (bits e.handle 39 24 * 2 ^ 352 + n % 256 * 2 ^ 344 + own % 256 * 2 ^ 336 + op % 256 * 2 ^ 328 + v % 2 ^ 320)

/-- Fabric cycles at 2.4 GHz as core cycles at 1.7 GHz, rounded up (R4). -/
def fabric (n : Nat) : Nat := (n * 17 + 23) / 24

/-! ## Time and sett registers -/

/-- TIMEHI:TIMELO of a sett (R137). -/
def State.time (s : State) (sett : Nat) : Nat := (((s.cycle : Int) - (s.sett sett).timeZero) % 2 ^ 64).toNat

def Sett.base (t : Sett) (selector : Nat) : Nat := Tab.get (setbaseDefault selector) t.setbase selector

/-! ## HBM and host memory -/

def hbmAddr (sett pa : Nat) : Nat := sett * 2 ^ 37 + pa

def State.hbmRead (s : State) (sett pa n : Nat) : Nat := Memory.readN s.hbm (hbmAddr sett pa) n
def State.hbmWrite (s : State) (sett pa n v : Nat) : State :=
  { s with hbm := Memory.writeN s.hbm (hbmAddr sett pa) n v }
def State.hostRead (s : State) (a n : Nat) : Nat := Memory.readN s.hostMem a n
def State.hostWrite (s : State) (a n v : Nat) : State := { s with hostMem := Memory.writeN s.hostMem a n v }

/-- A field put into a record. -/
def putBits (x hi lo v : Nat) : Nat :=
  x - bits x hi lo * 2 ^ lo + v % 2 ^ (hi - lo + 1) * 2 ^ lo

/-- An n-bit two's-complement field as an integer. -/
def sext (n x : Nat) : Int := if 2 ^ (n - 1) ≤ x % 2 ^ n then (x % 2 ^ n : Nat) - (2 ^ n : Nat) else (x % 2 ^ n : Nat)

/-- An integer wrapped to n bits. -/
def wrap (n : Nat) (v : Int) : Nat := (v % 2 ^ n).toNat

/-- Set bits of a word. -/
def orBits (w : Word) (m : Nat) : Word := w ||| BitVec.ofNat 32 m

/-- Bit l of a lane mask. -/
def inMask (m : LaneMask) (l : Nat) : Bool := m.getLsbD l

/-- The lanes of a mask, ascending. -/
def lanesOf (m : LaneMask) : List Nat := (List.range 32).filter (inMask m)

/-- The mask of a list of lanes. -/
def maskOf (ls : List Nat) : LaneMask := BitVec.ofNat 32 (ls.foldl (fun a l => a ||| 2 ^ l) 0)

/-- A mask of the lanes that a condition holds in. -/
def maskWhere (p : Nat → Bool) : LaneMask := maskOf ((List.range 32).filter p)

/-! ## Threads and registers of a crew -/

def Crew.thread (c : Crew) (l : Nat) : Thread := Tab.get {} c.threads l
def Crew.setThread (c : Crew) (l : Nat) (t : Thread) : Crew := { c with threads := Tab.set {} c.threads l t }
def Crew.modThread (c : Crew) (l : Nat) (f : Thread → Thread) : Crew := c.setThread l (f (c.thread l))
def Crew.onThreads (c : Crew) (ls : List Nat) (f : Thread → Thread) : Crew :=
  ls.foldl (fun c l => c.modThread l f) c

def Crew.slot (c : Crew) (r l : Nat) : Slot := Tab.get {} c.regs (32 * r + l)
def Crew.setSlot (c : Crew) (r l : Nat) (v : Slot) : Crew := { c with regs := Tab.set {} c.regs (32 * r + l) v }

/-- Write a register's lane with a count (R25): the slot is no longer released. -/
def Crew.writeReg (c : Crew) (r l : Nat) (v : Word) (cnt : Nat) : Crew :=
  c.setSlot r l { val := v, cnt := BitVec.ofNat 2 cnt, rel := false }

/-- One counted read of a slot (R25). -/
def Slot.read (x : Slot) : Slot :=
  if x.cnt = 0 then x else { x with cnt := x.cnt - 1, rel := x.cnt = 1 }

def Crew.pred (c : Crew) (l p : Nat) : Bool := (Tab.get 0 c.preds l).getLsbD p
def Crew.setPred (c : Crew) (l p : Nat) (v : Bool) : Crew :=
  let w := Tab.get 0 c.preds l
  let m := BitVec.ofNat 12 (2 ^ p)
  { c with preds := Tab.set 0 c.preds l (if v then w ||| m else w &&& ~~~m) }

/-- Crew register of window field n (R43). -/
def Crew.win (c : Crew) (n : Nat) : Nat := 16 * c.wb + n

def Crew.form (c : Crew) (r : Nat) : Option Form := c.forms.find? (fun f => f.reg = r)
def Crew.pendingReg (c : Crew) (r : Nat) : Bool := (c.form r).isSome

/-- Frees the symbols that have resolved and that no entry names (R97). -/
def Crew.freeSyms (c : Crew) (now : Nat) : Crew :=
  { c with syms := c.syms.filter (fun y => !(y.resolved && decide (y.until_ ≤ now) &&
      c.forms.all (fun f => f.sym != y.num))) }

/-- SYMMASK (R88). -/
def Crew.symmask (c : Crew) : Nat := c.syms.foldl (fun a y => a ||| 2 ^ y.num) 0

/-- Scratchpad bytes after rounding, Z of R244. -/
def padBytes (scratch : Nat) : Nat :=
  if scratch = 0 then 0
  else
    let n := (scratch + 16383) / 16384
    16384 * 2 ^ (if n ≤ 1 then 0 else Nat.log2 (n - 1) + 1)

/-- Arrays of a register region (R236). -/
def regArrays (crews regs : Nat) : Nat := (crews * regs * 128 + 16383) / 16384

/-- Arrays that a block takes (R236). -/
def Block.arrayCount (b : Block) : Nat := regArrays b.crews b.regs + padBytes b.scratch / 16384 + b.arrays

/-! ## The journal (R414, R417) -/

/-- An outside input for the journal of a core (R417). -/
def State.redo (s : State) (g : Nat) (r : Redo) : State :=
  { s with journals := Tab.modify [] s.journals g (fun js =>
      match js with
      | j :: rest => if j.cycle = s.cycle then { j with redo := j.redo ++ [r] } :: rest
                     else ⟨s.cycle, none, [r], 0⟩ :: j :: rest
      | [] => [⟨s.cycle, none, [r], 0⟩]) }

/-- A deferred trap from outside for an instruction issued in a cycle is kept for a rollback. -/
def State.redoTrap (s : State) (issued k code : Nat) (pc : BitVec 64) (info : Nat) (entry : Option Nat) : State :=
  s.redo (s.crew k).core (.trap issued k { code := code, pc := pc, info := BitVec.ofNat 32 info, entry := entry, due := s.cycle })

end Sys2Proof.Machine
end

