-- ==== Sys2Proof/Machine/Ops.lean ====
section
/-! DEFINITION. Operations that every family shares: reports, fault buffer entries, ending collectives, killing and
relaunching gangs, TAKING A TRAP and returning from it. -/

namespace Sys2Proof.Machine

/-! ## Reports (R424) -/

/-- What a report names besides its kind. -/
structure ReportInfo where
  kind : Nat
  unit : Nat := 0
  addr : Nat := 0
  gangRec : Nat := 0
  block : Nat := 0
  crew : Nat := 0
  core : Nat := 0
  phase : Nat := 0
  info : Nat := 0
  stamp : Nat := 0

/-- Place of the report ring in a sett's HBM (R424). -/
def reportRing : Nat := 0x1BFFF00000

def reportWord (r : ReportInfo) (time seq : Nat) : Nat :=
  r.addr * 2 ^ 448 + time * 2 ^ 384 + r.gangRec * 2 ^ 373 + r.block * 2 ^ 371 + r.crew * 2 ^ 366 +
  r.core % 128 * 2 ^ 359 + r.phase * 2 ^ 336 + r.unit * 2 ^ 328 + r.info * 2 ^ 288 + r.stamp * 2 ^ 40 +
  r.kind * 2 ^ 32 + seq % 2 ^ 32

/-- Raise an MSI-X vector of a sett's function (R371). -/
def State.raise (s : State) (sett v : Nat) : State := s.modSett sett (fun t => { t with raised := t.raised ++ [v] })

/-- Write a report and raise vector 2 (R424). A report of an event that no structure belongs to carries one of the unit codes of R425, a
free one (log 129). -/
def State.report (s : State) (sett : Nat) (r : ReportInfo) : State :=
  let k := (s.sett sett).reportSeq
  let r := { r with unit := if r.unit = 0 then 1 + (Config.reportUnit sett k).toNat % 10 else r.unit }
  let s := s.hbmWrite sett (reportRing + 64 * (k % 4096)) 64 (reportWord r (s.time sett) k)
  (s.modSett sett (fun t => { t with reportSeq := k + 1 })).raise sett 2

/-- A corrected error (R424): it is counted in the info field of its unit's record where that one is less than 2^20 cycles old and still
stands in the ring, else it gets a record of its own. -/
def State.reportCorrected (s : State) (sett unit addr core : Nat) : State :=
  let k := (s.sett sett).reportSeq
  let (c, j, n) := Tab.get (0, 0, 0) (s.sett sett).corrected unit
  let put (s : State) (e : Nat × Nat × Nat) : State :=
    s.modSett sett (fun t => { t with corrected := Tab.set (0, 0, 0) t.corrected unit e })
  if n != 0 && decide (s.cycle < c + 2 ^ 20) && decide (k ≤ j + 4096) then
    put (s.hbmWrite sett (reportRing + 64 * (j % 4096) + 36) 4 (n + 1)) (c, j, n + 1)
  else put (s.report sett { kind := 2, unit := unit, addr := addr, core := core, info := 1 }) (s.cycle, k, 1)

/-! ## The fault buffer (R342) -/

/-- A fault buffer entry as memory holds it. -/
def FaultEntry.word (f : FaultEntry) : Nat :=
  f.va * 2 ^ 448 + f.pc * 2 ^ 384 + f.stamp * 2 ^ 288 + f.value * 2 ^ 256 + f.lanes * 2 ^ 224 +
  f.gangRec * 2 ^ 213 + f.block * 2 ^ 211 + f.crew * 2 ^ 206 + f.core % 128 * 2 ^ 199 +
  min f.waiters.length 4095 * 2 ^ 187 + f.seq % 2 ^ 16 * 2 ^ 171 + (if f.pst then 1 else 0) * 2 ^ 168 +
  f.kind * 2 ^ 164 + f.access * 2 ^ 162 + f.level * 2 ^ 160 + f.agent * 2 ^ 158 +
  (if f.rp then 1 else 0) * 2 ^ 157 + f.res * 2 ^ 155

def State.fault (s : State) (sett e : Nat) : FaultEntry := Tab.get FaultEntry.init (s.sett sett).faults e

/-- Set an entry in the fault unit and in the buffer in memory (R341). -/
def State.setFault (s : State) (sett e : Nat) (f : FaultEntry) : State :=
  let s := (s.modSett sett (fun t => { t with faults := Tab.set FaultEntry.init t.faults e f })).hbmWrite sett
    ((s.sett sett).base 1 + 64 * e) 64 f.word
  if f.res = 3 && (s.sett sett).faultWait != [] then s.schedule 0 45 (.faultServiceCardPost sett) else s

/-- Drop the waiters that a condition names from every entry and walk of a sett; a fault that has no entry yet leaves with its
waiter (R344). -/
def State.dropWaiters (s : State) (sett : Nat) (p : Waiter → Bool) : State :=
  let es := (s.sett sett).faults.filter (fun e => e.2.waiters.any p)
  let s := forEach es s (fun e t => t.setFault sett e.1 { e.2 with waiters := e.2.waiters.filter (fun w => !p w) })
  let s := s.modSett sett (fun t => { t with
    faultWait := t.faultWait.filter (fun f => !f.waiters.any p)
    arrivals := t.arrivals.filter (fun a => !a.fault.waiters.any p)
    missWait := t.missWait.filter (fun m => !p m.waiter) })
  { s with walks := s.walks.map (fun w => (w.1, w.2.map (fun x => { x with waiters := x.waiters.filter (fun w => !p w) }))) }

/-- The crew that a waiter belongs to. -/
def State.waiterCrew (s : State) : Waiter → Option Nat
  | .threads k _ _ _ => some k
  | .load r | .prefetch r => (s.req r).map Req.crew
  | .copy i _ _ => (s.copy i).map Copy.crew
  | .seq g op _ _ => ((s.core g).seq.find? (fun o => o.id = op)).map SeqOp.crew
  | .late k _ _ _ => some k

/-! ## Counters that hold several requests (R29, R167) -/

def Crew.dec (n : Nat) : Nat := n - 1

/-- One request of a copy-class instruction has ended; the last one lowers the copies counter (R167). -/
def State.groupDone (s : State) (g : Nat) : State :=
  match Tab.get none s.groups g with
  | none => s
  | some x =>
    if x.left ≤ 1 then
      ({ s with groups := Tab.set none s.groups g none }).modCrew x.crew (fun c => { c with copies := c.copies - 1 })
    else { s with groups := Tab.set none s.groups g (some { x with left := x.left - 1 }) }

/-! ## Ending the collectives of an attempt (R381) -/

def State.group (s : State) (sett g : Nat) : GroupEntry := Tab.get GroupEntry.init (s.sett sett).groups g

/-- Collective slots of a group that run at an attempt. -/
def State.collSlots (s : State) (sett g attempt : Nat) : List Nat :=
  ((s.sett sett).colls.filter (fun p => match p.2 with
    | none => false
    | some c => c.group = g && c.attempt = attempt && !c.aborted)).map Prod.fst

/-- End a slot's collective without completing it: done is unchanged and the issuer's copies counter falls. The event that
follows leaves its receive buffer unpredictable and frees the slot. -/
def State.endColl (s : State) (sett slot : Nat) : State :=
  match Tab.get none (s.sett sett).colls slot with
  | none => s
  | some c =>
    let s := s.modSett sett (fun t => { t with colls := Tab.set none t.colls slot (some { c with aborted := true }) })
    let s := s.redo (s.crew c.crew).core (.ended c.crew c.copyGroup (c.attempt * 65536 + slot))
    ((s.groupDone c.copyGroup).modCrew c.crew (fun k => { k with
      colls := k.colls.filter (fun h => h != c.attempt * 65536 + slot) })).schedule 0 35 (.collectiveComplete sett slot)

/-- A packet or token of attempt `a` is stale for a rank at attempt `c` (R380). -/
def staleAttempt (c a : Nat) : Bool :=
  let d := (c + 65536 - a % 65536) % 65536
  decide (1 ≤ d) && decide (d ≤ 32767)

/-- Every collective of the group at attempt `a` ends and the attempt becomes a + 1, unless a newer one is already there
(R381). Packets that have become stale leave. -/
def State.abortAttempt (s : State) (sett g a : Nat) : State :=
  let s := forEach (s.collSlots sett g a) s (fun i t => t.endColl sett i)
  s.modSett sett (fun t => { t with groups := Tab.modify GroupEntry.init t.groups g (fun x =>
    if staleAttempt x.attempt a then x
    else { x with attempt := (a + 1) % 65536, issued := 0,
                  held := x.held.filter (fun h => !staleAttempt ((a + 1) % 65536) h.1) }) })

/-- Peer handles of a group's ranks other than the own one (R379); `ranks` is a physical address of the own HBM (log 23). -/
def State.peers (s : State) (sett g : Nat) : List Nat :=
  let x := s.group sett g
  ((List.range (x.n + 1)).filter (fun j => j != x.me)).map (fun j => s.hbmRead sett (x.ranks + 8 * j) 8)

/-- Send an abort token to every other rank: setts of the package get it over the fabric, the rest through a link. -/
def State.sendTokens (s : State) (sett g a : Nat) : State :=
  forEach (s.peers sett g) s (fun h t =>
    if h / 2 ^ 52 = 0 then t.schedule 60 36 (.abortTokenReceive (h / 2 ^ 49 % 8) g a) else t.toModule (h / 2 ^ 49) 15 (g + a * 2 ^ 8) 0)

/-! ## Killing a gang (R426 to R430) -/

/-- Take everything in flight away from a set of crews: issues, requests, copies, operations, cards, waiters. Deferred traps that are
held for the crews stay (R384). -/
def State.discard (s : State) (sett : Nat) (ks : List Nat) : State :=
  let mine (k : Nat) : Bool := ks.contains k
  let gone := (s.copies.filter (fun p => match p.2 with | none => false | some c => mine c.crew)).map Prod.fst
  let ops := s.cores.flatMap (fun p => (p.2.seq.filter (fun o => mine o.crew)).map SeqOp.id)
  let s := s.dropWaiters sett (fun w => match w with
    | .late .. => false
    | w => (match s.waiterCrew w with | none => false | some k => mine k))
  { s with
    turn := s.turn.filter (fun u => !mine u.crew)
    reqs := s.reqs.filter (fun p => match p.2 with | none => false | some r => !mine r.crew)
    copies := s.copies.filter (fun p => match p.2 with | none => false | some c => !mine c.crew)
    groups := s.groups.filter (fun p => match p.2 with | none => false | some g => !mine g.crew)
    cores := s.cores.map (fun p => (p.1, { p.2 with
      active := p.2.active.filter (fun a => match a.2 with | none => false | some e => !mine e.crew)
      score := p.2.score.filter (fun e => !gone.contains e.copy && !ops.contains e.copy)
      copies := p.2.copies.filter (fun i => !gone.contains i)
      seq := p.2.seq.filter (fun o => !mine o.crew)
      post := p.2.post.filter (fun c => !mine c.crew)
      lent := p.2.lent.filter (fun l => !mine l.1) })) }

/-- Deferred traps that wait for crews that are killed go with them. -/
def State.dropTraps (s : State) (sett : Nat) (ks : List Nat) : State :=
  (s.dropWaiters sett (fun w => match w with | .late k _ _ _ => ks.contains k | _ => false)).modSett sett (fun t => { t with
    trapWait := t.trapWait.filter (fun x => !ks.contains x.1) })

/-- Remove a gang's blocks and crews; their arrays become free (R236), and its cluster has had a gang of the stage up to now
(R323). -/
def State.clearGang (s : State) (sett r : Nat) : State :=
  let bs := s.gangBlocks sett r
  let x := s.record sett r
  let s := if x.st != .placed then s else s.modSett sett (fun t => { t with
    clusters := Tab.modify Cluster.init t.clusters x.vclus (fun c => if c.holder = some x.queue then { c with used := s.cycle } else c) })
  { s with
    crews := s.crews.filter (fun p => !bs.contains (crewBlock p.1))
    blocks := s.blocks.filter (fun p => !bs.contains p.1) }

/-- A record is freed and keeps its generation; the next gang in it starts one higher (R287, R319). -/
def LaunchRec.freed (x : LaunchRec) : LaunchRec :=
  { LaunchRec.init with ganggen := x.ganggen, reuse := true }

/-- Free the context image of a swapped-out gang (R382). -/
def State.freeContext (s : State) (sett a : Nat) : State :=
  s.modSett sett (fun t => { t with contexts := t.contexts.filter (fun c => c.1 != a) })

/-- Code that a launch overwrote is read as written from the launch's end on (R61). -/
def State.settleCode (s : State) (launch : Nat) : State :=
  { s with codeOld := s.codeOld.filter (fun p => match p.2 with | some o => o.1 != launch | none => false) }

/-- Cycles to the next placement of a sett's engine, one in 8 fabric cycles (R4, R326). -/
def State.nextSlot (s : State) : Nat := max 1 ((8 * (s.cycle * 24 / 17 / 8 + 1) * 17 + 23) / 24 - s.cycle)

/-- The engine looks for a gang to place at its next slot. -/
def State.kick (s : State) (sett : Nat) : State :=
  if s.agenda.any (fun t => t.ev = .gangPlacement sett) then s else s.schedule s.nextSlot 81 (.gangPlacement sett)

/-- Keys that the crews of a record have, live or swapped out. -/
def recordCrews (sett r : Nat) : List Nat :=
  (List.range 4).flatMap (fun b => (List.range 32).map (fun c => crewKey (blockKey sett r b) c))

/-- A gang of a launch has ended, as failed or not; the last one of a launch with a failed gang abandons it: no
release, sig and done stay, and a report of kind 0x06 is written (R430). Answers whether the launch completed. -/
def State.gangEnded (s : State) (sett id : Nat) (failed : Bool) : Bool × State :=
  match (s.sett sett).launches.find? (fun l => l.index = id) with
  | none => (false, s)
  | some l =>
    let l := { l with ended := l.ended + 1, failed := l.failed || failed }
    if l.ended = l.gangs && l.failed then
      (false, ((s.modSett sett (fun t => { t with launches := t.launches.filter (fun x => x.index != id) })).settleCode id).report sett
        { kind := 6 })
    else
      (l.ended = l.gangs, s.modSett sett (fun t => { t with
        launches := t.launches.map (fun x => if x.index = id then l else x) }))

/-- Abort the running collectives of crews as by SYS.cabort, with tokens to the other ranks (R426). -/
def State.abortColls (s : State) (sett : Nat) (ks : List Nat) : State :=
  let mine := (s.sett sett).colls.filterMap (fun p => match p.2 with
    | none => none
    | some c => if ks.contains c.crew then some (c.group, c.attempt) else none)
  forEach mine s (fun p t =>
    if (t.group sett p.1).attempt = p.2 then (t.abortAttempt sett p.1 p.2).sendTokens sett p.1 p.2 else t)

/-- A gated core starts to wake: 4 cycles from clock gating, 1,700 from power gating. -/
def State.wakeCore (s : State) (g : Nat) : State :=
  match (s.core g).gate with
  | 1 => (s.modCore g (fun c => { c with gate := 3 })).schedule 4 3 (.coreWake g)
  | 2 => (s.modCore g (fun c => { c with gate := 3 })).schedule 1700 3 (.coreWake g)
  | _ => s

/-- Kill one gang and relaunch or abandon it (R426, R428, R430). -/
def State.killOne (s : State) (sett r : Nat) : State :=
  let x := s.record sett r
  let ks := recordCrews sett r
  let s := s.abortColls sett ks
  let s := forEach (((s.gangBlocks sett r).map (fun b => (s.block b).core)).eraseDups) s (fun g t => t.wakeCore g)
  let s := ((s.discard sett ks).dropTraps sett ks).clearGang sett r
  let s := s.modSett sett (fun t => { t with swaps := t.swaps.filter (fun w => w.gangRec != r) })
  let s := if x.image != 0 then s.freeContext sett x.image else s
  if x.tries < min x.relaunch 3 then
    let ran := if x.st = .awaiting then 0 else min (s.cycle - x.firstAt) (2 ^ 32 - 1)
    ((s.modRecord sett r (fun y => { y with
      ganggen := min 255 (y.ganggen + 1), tries := y.tries + 1, recov := true, gt := true,
      catch_ := ran, st := .awaiting, waitFrom := s.cycle, image := 0, restoring := 0 })).report sett
      { kind := 5, gangRec := r, info := x.tries + 1 }).kick sett
  else
    let s := s.modRecord sett r LaunchRec.freed
    ((s.gangEnded sett x.launch true).2).kick sett

/-- A region control block: the engine's cached copy, or memory (R309, R311). Region blocks and rings lie at physical
addresses of the own HBM (log 23). -/
def State.rcb (s : State) (sett a : Nat) : Nat :=
  match Tab.get 0 (s.sett sett).rcbs a with
  | 0 => s.hbmRead sett a 128
  | w + 1 => w

/-- The parent of a region control block (R309). -/
def State.rcbParent (s : State) (sett a : Nat) : Nat := bits (s.rcb sett a) 1023 960

/-- Whether region `a` lies in the subtree of `root`, at most 8 levels up (R309). -/
def State.inSubtree (s : State) (sett root : Nat) : Nat → Nat → Bool
  | 0, _ => false
  | n + 1, a => a = root || (a != 0 && State.inSubtree s sett root n (s.rcbParent sett a))

/-- Records that a kill of gang `r` reaches, by the kill scope of its region (R427). -/
def State.killReach (s : State) (sett r : Nat) : List Nat :=
  let x := s.record sett r
  let used := (s.sett sett).records.filter (fun p => p.2.st = .placed || p.2.st = .swapped)
  if x.kill = 1 then (used.filter (fun p => p.2.launch = x.launch)).map Prod.fst
  else if x.kill = 2 then (used.filter (fun p => s.inSubtree sett x.rcb 8 p.2.rcb)).map Prod.fst
  else [r]

/-- Kill a gang under its region's kill scope (R426, R427). -/
def State.killGang (s : State) (sett r : Nat) : State :=
  forEach (s.killReach sett r) s (fun q t => t.killOne sett q)

/-! ## Traps (R345 to R348) -/

/-- Trap codes (R345). -/
inductive Trap where
  | illegal | blockExtent | regAlloc | deadRead | misaligned | addrSpace | copyDesc | copyFault | tileParam | lease
  | translation | deferredTranslation | siblingFull | jobCard | program | breakpoint
deriving DecidableEq, Repr

def Trap.code : Trap → Nat
  | .illegal => 1 | .blockExtent => 2 | .regAlloc => 3 | .deadRead => 4 | .misaligned => 5 | .addrSpace => 6
  | .copyDesc => 7 | .copyFault => 8 | .tileParam => 9 | .lease => 10 | .translation => 11
  | .deferredTranslation => 12 | .siblingFull => 13 | .jobCard => 14 | .program => 15 | .breakpoint => 16

/-- A crew as it enters the handler at address `h` (R346): the frame holds the threads, the trap registers are
written, and every thread, exited ones included, continues at the handler. -/
def Crew.enterTrap (c : Crew) (h now : Nat) (code : Nat) (pc : BitVec 64) (info : Nat) (lanes : Option LaneMask)
    (entry : Option Nat) : Crew :=
  { c with
    frame := c.threads
    trapCode := BitVec.ofNat 32 code
    trapInfo := BitVec.ofNat 32 info
    trapPc := pc
    trapLanes := lanes
    trapEntry := entry
    handler := true
    threads := (List.range 32).map (fun l => (l, { pc := BitVec.ofNat 64 h, st := .ready, wait := 0, due := now })) }

/-- Accesses of the crew's threads that wait for a walk or for the fault unit are given up: SYS.tret performs their instructions
again (R347). -/
def State.forgetThreads (s : State) (k : Nat) : State :=
  if (s.crew k).threads.all (fun p => p.2.st != .parked) then s
  else s.dropWaiters (crewSett k) (fun w => match w with | .threads c _ _ _ => c = k | _ => false)

/-- TAKING A TRAP (R346): the crew enters its region's handler. A handler address of 0 and a trap in handler mode kill
the gang (R346, R347). `lanes` are the threads that executed the trapping instruction; a deferred trap has none. -/
def State.takeTrap (s : State) (k : Nat) (t : Trap) (pc : BitVec 64) (info : Nat) (lanes : Option LaneMask)
    (entry : Option Nat := none) : State :=
  let c := s.crew k
  let h := (s.record (crewSett k) (crewRec k)).handler
  if c.handler || h = 0 then s.killGang (crewSett k) (crewRec k)
  else (s.forgetThreads k).setCrew k (c.enterTrap h s.cycle t.code pc info lanes entry)

/-- A thread as SYS.tret restores it (R347): one that waited in WAITP or TRYW waits on with its phase and its deadline, one that
slept sleeps its full time again, one that was parked executes its instruction again. -/
def Thread.again (t : Thread) (now : Nat) : Thread :=
  match t.st with
  | .parked => { t with st := .ready, wait := 0 }
  | .sleeping _ n next => { t with st := .sleeping (now + n) n next }
  | _ => t

/-- A crew as it leaves the handler (R347). -/
def Crew.leaveTrap (c : Crew) (now : Nat) : Crew :=
  let put (l : Nat) : Thread :=
    let t := Thread.again (Tab.get {} c.frame l) now
    match c.trapLanes with
    | some m => if inMask m l then { t with pc := c.trapPc, st := .ready, wait := 0, due := now } else t
    | none => t
  { c with
    handler := false
    frame := []
    trapLanes := none
    trapEntry := none
    threads := ((List.range 32).map (fun l => (l, put l))).filter (fun p => p.2 != ({} : Thread)) }

/-- The timed steps of a crew's waiting and sleeping threads: each waiter looks at its object again (R347, R416). -/
def State.rearmThreads (s : State) (k : Nat) : State :=
  forEach (s.crew k).threads s (fun p t => match p.2.st with
    | .sleeping u _ _ => t.schedule (u - t.cycle) 70 (.sleepExpiry k p.1)
    | .waiting w =>
      let t := t.schedule 1 60 (.waiterResume k p.1)
      (match w.deadline with
        | some d =>
          let left := (d % 2 ^ 32 + 2 ^ 32 - t.time (crewSett k) % 2 ^ 32) % 2 ^ 32
          t.schedule (if 2 ^ 31 < left then 1 else left) 62 (.trywDeadline k p.1)
        | none => t)
    | _ => t)

/-- Every thread of the crew has exited. -/
def Crew.allExited (c : Crew) : Bool := c.threads.all (fun p => p.2.st = .exited)

/-- RETURNING FROM A TRAP (R347): the threads resume, the trap's fault buffer entry is freed, and the next deferred
trap falls due at the next boundary (R348). -/
def State.returnTrap (s : State) (k : Nat) : State :=
  let c := s.crew k
  let s := (s.setCrew k (c.leaveTrap s.cycle)).rearmThreads k
  let s := match c.trapEntry with
    | none => s
    | some e => s.setFault (crewSett k) e { s.fault (crewSett k) e with res := 3 }
  if c.deferred = [] then s else s.schedule 1 90 (.deferredTrapDelivery k)

/-- Codes of the traps that their fault buffer entry or symbol holds while the list is full (R348). -/
def heldByEntry (code : Nat) : Bool := code = Trap.siblingFull.code || code = Trap.deferredTranslation.code

/-- Insert in the order in which the traps fell due, those of one cycle by trap code (R348). -/
def insertDeferred (d : Deferred) (l : List Deferred) : List Deferred :=
  insertBy (fun a b => decide (a.due < b.due) || (a.due = b.due && decide (a.code ≤ b.code))) d l

/-- A deferred trap falls due for a crew (R348): it enters the crew's list of 8. While the list is full, or the crew is swapped out,
its fault buffer entry or symbol holds it; false where another agent has to keep it. -/
def State.deferEntry (s : State) (k : Nat) (d : Deferred) : Bool × State :=
  let c := s.crew k
  if !c.live && (s.record (crewSett k) (crewRec k)).st != .swapped then (true, s)
  else if !c.live || 8 ≤ c.deferred.length then
    (if heldByEntry d.code then (true, s.modSett (crewSett k) (fun t => { t with trapWait := t.trapWait ++ [(k, d)] })) else (false, s))
  else (true, (s.setCrew k { c with deferred := insertDeferred d c.deferred }).schedule 1 90 (.deferredTrapDelivery k))

/-- As `deferEntry`, for a trap that falls due now. -/
def State.deferTrap (s : State) (k : Nat) (t : Trap) (pc : BitVec 64) (info : Nat) (entry : Option Nat := none) :
    Bool × State :=
  s.deferEntry k { code := t.code, pc := pc, info := BitVec.ofNat 32 info, entry := entry, due := s.cycle }

/-- Traps that were held for a crew enter its list while it has room (R348). -/
def State.refillTraps (s : State) (k : Nat) : State :=
  let sett := crewSett k
  let mine := ((s.sett sett).trapWait.filter (fun x => x.1 = k)).take (8 - (s.crew k).deferred.length)
  if mine = [] || !(s.crew k).live then s
  else
    let s := s.modSett sett (fun t => { t with trapWait := mine.foldl (fun l x => l.erase x) t.trapWait })
    (s.modCrew k (fun c => { c with deferred := mine.foldl (fun l x => insertDeferred x.2 l) c.deferred })).schedule 1 90
      (.deferredTrapDelivery k)

/-- Deliver the first deferred trap of a crew, outside handler mode (R348). A handler whose every thread has exited is over
(log 102). -/
def State.deliverDeferred (s : State) (k : Nat) : State :=
  let c := s.crew k
  match c.deferred with
  | [] => s
  | d :: ds =>
    if (c.handler && !c.allExited) || !c.live then s
    else
      let h := (s.record (crewSett k) (crewRec k)).handler
      if h = 0 then s.killGang (crewSett k) (crewRec k)
      else ((s.forgetThreads k).setCrew k ((({ c with deferred := ds }).enterTrap h s.cycle d.code d.pc d.info.toNat none d.entry))).refillTraps k

end Sys2Proof.Machine
end

