-- ==== Sys2Proof/Machine/Operands.lean ====
section
/-! DEFINITION. Operand forms: guard and mask, the elements of a block, the registers an instruction names in the
window, the values it reads, consumer counts, and the trap checks of R26, R43 and R46. -/

namespace Sys2Proof.Machine

/-! ## Lanes (R35 to R38) -/

/-- Whether the row is SEL, whose guard field selects and does not guard (R36). -/
def isSel : Instr → Bool
  | .sel .. => true
  | _ => false

/-- The guard of a lane (R35, R36). -/
def Crew.guardOk (c : Crew) (i : Instr) (l : Nat) : Bool :=
  isSel i || 11 < (info i).g.toNat || c.pred l (info i).g.toNat

/-- The prefix mask of a lane (R38). -/
def Crew.maskOk (c : Crew) (f : Info) (l : Nat) : Bool :=
  match f.px with
  | none => true
  | some p => 11 < p.mask.toNat || c.pred l p.mask.toNat

/-- The lanes of a path in which the instruction is active (R38). -/
def Crew.active (c : Crew) (i : Instr) (m : LaneMask) : List Nat :=
  (lanesOf m).filter (fun l => c.guardOk i l && c.maskOk (info i) l)

/-- The lanes of a path that a zeroing mask writes with zero (R38). -/
def Crew.zeroed (c : Crew) (i : Instr) (m : LaneMask) : List Nat :=
  if (info i).mz then (lanesOf m).filter (fun l => c.guardOk i l && !c.maskOk (info i) l) else []

/-- The instruction writes every one of the 32 lanes of its destination, in the sense of R89. -/
def Crew.writesAll (c : Crew) (i : Instr) (m : LaneMask) : Bool :=
  (List.range 32).all (fun l => (c.active i m).contains l || (c.zeroed i m).contains l)

/-! ## Elements and registers (R43 to R47) -/

/-- The elements (i, j) of the block, row by row. -/
def Info.elems (f : Info) : List (Nat × Nat) :=
  (List.range f.rows).flatMap (fun i => (List.range f.cols).map (fun j => (i, j)))

/-- Window field of an operand in element (i, j) (R45). -/
def opField (o : Nat × Nat) (e : Nat × Nat) : Nat := o.1 + 16 * e.1 + o.2 * e.2

/-- Window registers of an operand in an element: one, a pair or a quad. -/
def opRegs (o : Nat × Nat) (e : Nat × Nat) : List Nat := (List.range o.2).map (opField o e + ·)

/-- The scale register as an operand: it does not step (R86). -/
def Info.scaleReads (f : Info) : List Nat :=
  match f.scale with | none => [] | some r => f.elems.map (fun _ => r)

/-- Window registers that the instruction reads, once for every element that names one (R25, R47). -/
def Info.readRegs (f : Info) : List Nat :=
  f.srcList.flatMap (fun o => f.elems.flatMap (opRegs o)) ++ f.scaleReads

/-- Window registers that the instruction writes. -/
def Info.writeRegs (f : Info) : List Nat :=
  match f.dst with | none => [] | some o => f.elems.flatMap (opRegs o)

/-- Operand fields that the tests of R43 and R46 cover. -/
def Info.operands (f : Info) : List (Nat × Nat) := f.srcList ++ f.dst.toList

/-- Block-extent (R46): an operand's elements leave the window. -/
def Info.extentBad (f : Info) : Bool :=
  (f.rows != 1 || f.cols != 1) && f.operands.any (fun o =>
    decide (7 < o.1 / 16 + f.rows - 1) || decide (15 < o.1 % 16 + o.2 * (f.cols - 1) + o.2 - 1))

/-- Register-allocation (R43): a register at or beyond the crew's allocation. -/
def Crew.allocBad (c : Crew) (f : Info) : Bool :=
  (f.readRegs ++ f.writeRegs).any (fun n => decide (c.nregs ≤ c.win n))

/-- The registers as they stood before the instructions of this cycle wrote them (R132). -/
def beforeSlot (u : Issue) (r l : Nat) : Slot := Tab.get {} u.before (32 * r + l)

/-! ## Dead reads (R25, R26) -/

/-- Reads of each register in a lane are more than its slot allows. -/
def Crew.deadIn (c : Crew) (reads : List Nat) (l : Nat) : Bool :=
  reads.any (fun n =>
    let x := c.slot (c.win n) l
    x.rel || (x.cnt != 0 && decide (x.cnt.toNat < reads.count n)))

/-- Lanes that read a released slot directly. -/
def Crew.deadLanes (c : Crew) (i : Instr) (m : LaneMask) : List Nat :=
  (c.active i m).filter (c.deadIn (info i).readRegs)

/-- The crew as a lane exchange reads it: its registers before the instructions of this cycle wrote them (R132). -/
def Crew.asRead (c : Crew) (i : Instr) (u : Issue) : Crew :=
  match i with
  | .lxor .. | .lget .. | .lrot .. | .lrots .. => { c with regs := u.before }
  | _ => c

/-- The scale byte of block b of the instruction (R85, R86): byte q = b + 32·sel of the scale register, which lies in
lane q / 4. -/
def scaleLane (sel b : Nat) : Nat := (b + 32 * sel) / 4

/-- Source lane of a lane exchange for lane l (R133), given the value of b in that lane; none for other rows. -/
def sourceLane (i : Instr) (l bval : Nat) : Option Nat :=
  match i with
  | .lxor _ _ _ k _ => some (l ^^^ k.toNat % 32)
  | .lget .. => some (bval % 32)
  | .lrot _ _ _ k _ => some ((l + 32 - k.toNat % 32) % 32)
  | .lrots _ _ _ w k _ => let W := segWidth w
                          some (l / W * W + (l % W + W - k.toNat % W) % W)
  | _ => none

/-- The scale select of CVTMX and QMX. -/
def scaleSel : Instr → Nat
  | .cvtmx _ _ _ _ v _ => v.toNat
  | .qmx _ _ _ _ v _ => v.toNat
  | _ => 0

/-- Lanes that supply a value to an active lane from a released slot: exchanges (R132) and scale bytes (R85). -/
def Crew.deadSources (c : Crew) (i : Instr) (u : Issue) : List Nat :=
  let f := info i
  let act := c.active i u.lanes
  match f.scale with
  | some r =>
    (f.elems.zipIdx.flatMap (fun e => act.map (fun l => scaleLane (scaleSel i) (4 * e.2 + l / 8)))).filter
      (fun j => (beforeSlot u (c.win r) j).rel)
  | none =>
    act.filterMap (fun l =>
      let bval := match f.srcList[1]? with | some o => (beforeSlot u (c.win o.1) l).val.toNat | none => 0
      match sourceLane i l bval, f.srcList[0]? with
      | some j, some o => if (beforeSlot u (c.win o.1) j).rel then some j else none
      | _, _ => none)

/-- Registers that a LEASE moves, where its count can be read: the first window register and the number, 1 to 32 (R179). -/
def Crew.leaseRange (c : Crew) (i : Instr) (m : LaneMask) : Option (Nat × Nat) :=
  let range (d a : BitVec 7) : Option (Nat × Nat) :=
    match c.active i m with
    | [] => none
    | l :: _ =>
      let x := c.slot (c.win a.toNat) l
      if c.nregs ≤ c.win a.toNat || x.rel || x.val.toNat = 0 || decide (32 < x.val.toNat) then none else some (d.toNat, x.val.toNat)
  match i with
  | .leaseSpill _ d a _ | .leaseFill _ d a _ | .leaseDrop _ d a _ => range d a
  | _ => none

/-- The traps that an instruction's operands raise before it has any effect, in the order of R48. The register fields are judged
whatever the guard and mask of the instruction (DESIGN CHOICE, log 113). -/
def Crew.operandTrap (c : Crew) (i : Instr) (u : Issue) : Option (Trap × Nat) :=
  let f := info i
  let range := c.leaseRange i u.lanes
  if f.extentBad || range.any (fun r => decide (128 < r.1 + r.2)) then some (.blockExtent, 0)
  else if c.allocBad f || range.any (fun r => decide (c.nregs < c.win r.1 + r.2)) then some (.regAlloc, 0)
  else
    let dead := (c.asRead i u).deadLanes i u.lanes ++ c.deadSources i u
    if dead = [] then none else some (.deadRead, (maskOf dead).toNat)

/-! ## Values (R44, R102) -/

/-- The value of an operand of width w in a lane: lowest register lowest. -/
def Crew.operand (c : Crew) (o e : Nat × Nat) (l : Nat) : Nat :=
  (opRegs o e).foldr (fun n v => (c.slot (c.win n) l).val.toNat + 2 ^ 32 * v) 0

/-- Values of all source operands of an element in a lane, in the order of `Info.srcList`. -/
def Crew.operandValues (c : Crew) (f : Info) (e : Nat × Nat) (l : Nat) : List Nat :=
  f.srcList.map (fun o => c.operand o e l)

/-- Register k of a result of several registers. -/
def resWord (v k : Nat) : Word := BitVec.ofNat 32 (v / 2 ^ (32 * k))

/-- Write a value of several registers to window register n. -/
def Crew.writeWide (c : Crew) (n w l v cnt : Nat) : Crew :=
  (List.range w).foldl (fun c k => c.writeReg (c.win (n + k)) l (resWord v k) cnt) c

/-- Count the reads of a list of window registers in a list of lanes (R25). -/
def Crew.countReads (c : Crew) (reads lanes : List Nat) : Crew :=
  reads.foldl (fun c n => lanes.foldl (fun c l => c.setSlot (c.win n) l (c.slot (c.win n) l).read) c) c

/-- Entries of the pending-form table whose every lane is released are freed (R97). -/
def Crew.dropDeadForms (c : Crew) : Crew :=
  { c with forms := c.forms.filter (fun f => (List.range 32).any (fun l => !(c.slot f.reg l).rel)) }

end Sys2Proof.Machine
end

