-- ==== Sys2Proof/Machine/Flags.lean ====
section
/-! DEFINITION. Predicates and condition bits: the conditions of R34, R125 and R126, writes of predicate pairs (R34,
R127), and the sticky bits of STATUS (R136). -/

namespace Sys2Proof.Machine

/-! ## Conditions -/

/-- A condition of R34 on two integers (R125). -/
def condInt (cond : Nat) (a b : Int) : Bool :=
  match cond with
  | 0 => a = b | 1 => a != b | 2 => a < b | 3 => a ≤ b | 4 => b < a | 5 => b ≤ a | _ => false

/-- FCMP on two FP32 encodings (R126). -/
def condFloat (cond a b : Nat) : Bool :=
  let x := Fmt.fp32.decode false a
  let y := Fmt.fp32.decode false b
  let un := x.isNan || y.isNan
  match cond with
  | 0 => x.eqv y | 1 => un || !x.eqv y | 2 => x.lt y | 3 => x.lt y || x.eqv y
  | 4 => y.lt x | 5 => y.lt x || x.eqv y | 6 => un | _ => false

/-! ## Predicates -/

/-- Write pair P: the true sense to p(2P), the complement to p(2P+1) (R34). -/
def Crew.writePair (c : Crew) (l P : Nat) (v : Bool) : Crew := (c.setPred l (2 * P) v).setPred l (2 * P + 1) !v

/-- Clear both predicates of a pair, as a zeroing mask does (R127). -/
def Crew.clearPair (c : Crew) (l P : Nat) : Crew := (c.setPred l (2 * P) false).setPred l (2 * P + 1) false

/-- Predicates of a lane that an instruction reads: guard, mask and sources. -/
def Info.predReads (f : Info) : List Nat :=
  (if 11 < f.g.toNat then [] else [f.g.toNat]) ++
  (match f.px with | none => [] | some p => if 11 < p.mask.toNat then [] else [p.mask.toNat]) ++ f.psrc

/-- Predicates that an instruction writes. -/
def Info.predWrites (f : Info) : List Nat :=
  if f.pall then List.range 12 else match f.pdst with | none => [] | some P => [2 * P, 2 * P + 1]

/-! ## STATUS -/

/-- Sticky bits of STATUS (R136). -/
inductive StatusBit where
  | modemiss | gap | deadread | mcpart | sibseen
deriving DecidableEq, Repr

def StatusBit.mask : StatusBit → Nat
  | .modemiss => 1 | .gap => 2 | .deadread => 4 | .mcpart => 8 | .sibseen => 16

def Crew.setStatus (c : Crew) (b : StatusBit) : Crew := { c with status := orBits c.status b.mask }

/-- mcfail bit k (R136). -/
def Crew.setMcfail (c : Crew) (k : Nat) : Crew := { c with status := orBits c.status (2 ^ (8 + k)) }

/-- The bits of STATUS that a write of one clears (R136): 11:8 and 4:0. -/
def statusWritable : Word := 0xF1F

/-- WRSYS STATUS (R136). -/
def Crew.clearStatus (c : Crew) (w : Word) : Crew := { c with status := c.status &&& ~~~(w &&& statusWritable) }

end Sys2Proof.Machine
end

