-- ==== Sys2Proof/Machine/Pending.lean ====
section
/-! DEFINITION. Values in flight (spec/04, R87 to R98): forms, the composition of R91, resolution (R95). -/

namespace Sys2Proof.Machine

/-- A source operand in one lane: a known word, or scale·σ + offset. -/
inductive Part where
  | known (v : Nat)
  | form (s o : Nat)
deriving DecidableEq, Repr

def rne (v : FVal) : Nat := Fmt.fp32.round 0 v
def fp (w : Nat) : FVal := Fmt.fp32.decode false w
def m32 (v : Nat) : Nat := v % 2 ^ 32
def sub32 (a b : Nat) : Nat := (a + 2 ^ 32 - b % 2 ^ 32) % 2 ^ 32
/-- The negation of an FP32 encoding. -/
def fneg (w : Nat) : Nat := rne (fp w).neg

/-- Kind of the form that an instruction of R91 makes: none for MOV, which keeps it; 1 integer; 2 FP32. Instructions
outside the table answer no kind at all. -/
def composeKind (i : Instr) : Option (Option Nat) :=
  match i with
  | .mov .. => some none
  | .iadd .. | .iaddi .. | .isub .. | .imul .. | .imuli .. | .shli .. | .imad .. => some (some 1)
  | .fadd .. | .fsub .. | .fmul .. | .ffma .. => some (some 2)
  | _ => none

/-- The table of R91 in one lane: new scale and offset. -/
def composeLane (i : Instr) (ops : List Part) : Option (Nat × Nat) :=
  match i, ops with
  | .mov .., [.form s o] => some (s, o)
  | .iadd .., [.form s o, .known k] | .iadd .., [.known k, .form s o] => some (s, m32 (o + k))
  | .iadd .., [.form s o, .form s' o'] => some (m32 (s + s'), m32 (o + o'))
  | .iaddi _ _ _ k _, [.form s o] => some (s, m32 (o + wrap 32 k.toInt))
  | .isub .., [.form s o, .known k] => some (s, sub32 o k)
  | .isub .., [.known k, .form s o] => some (sub32 0 s, sub32 k o)
  | .isub .., [.form s o, .form s' o'] => some (sub32 s s', sub32 o o')
  | .imul .., [.form s o, .known k] | .imul .., [.known k, .form s o] => some (m32 (s * k), m32 (o * k))
  | .imuli _ _ _ k _, [.form s o] => some (m32 (s * wrap 32 k.toInt), m32 (o * wrap 32 k.toInt))
  | .shli _ _ _ k _, [.form s o] => some (m32 (s * 2 ^ k.toNat), m32 (o * 2 ^ k.toNat))
  | .imad .., [.form s o, .known k, .known c] | .imad .., [.known k, .form s o, .known c] =>
    some (m32 (s * k), m32 (o * k + c))
  | .imad .., [.known a, .known b, .form s o] => some (s, m32 (a * b + o))
  | .fadd .., [.form s o, .known k] => some (s, rne (FVal.add 0 (fp o) (fp k)))
  | .fadd .., [.known k, .form s o] => some (s, rne (FVal.add 0 (fp o) (fp k)))
  | .fsub .., [.form s o, .known k] => some (s, rne (FVal.add 0 (fp o) (fp k).neg))
  | .fsub .., [.known k, .form s o] => some (fneg s, rne (FVal.add 0 (fp k) (fp o).neg))
  | .fmul .., [.form s o, .known k] | .fmul .., [.known k, .form s o] =>
    some (rne ((fp s).mul (fp k)), rne ((fp o).mul (fp k)))
  | .ffma .., [.form s o, .known k, .known c] | .ffma .., [.known k, .form s o, .known c] =>
    some (rne ((fp s).mul (fp k)), rne (FVal.add 0 ((fp o).mul (fp k)) (fp c)))
  | .ffma .., [.known a, .known b, .form s o] => some (s, rne (FVal.add 0 ((fp a).mul (fp b)) (fp o)))
  | _, _ => none

/-- A lane of a raw form is σ, which is 1·σ + 0 in the encodings of the kind that it takes on (R91). -/
def asKind (f : Form) (kind : Nat) (x : LaneForm) : LaneForm :=
  if f.kind = 0 && !x.held then { x with scale := if kind = 2 then 0x3F800000 else 1, offset := 0 } else x

/-- The lane of a form. -/
def Form.lane (f : Form) (l : Nat) : LaneForm := f.lanes[l]?.getD {}

/-- The forms that the sources of an instruction have. -/
def Crew.sourceForms (c : Crew) (f : Info) : List Form := f.srcList.filterMap (fun o => c.form (c.win o.1))

/-- Whether a form's kind and rounding mode agree with an instruction of kind k (R91). -/
def Form.agrees (x : Form) (k : Option Nat) (rnd : Nat) : Bool :=
  match k with
  | none => true
  | some k => x.kind = 0 || (x.kind = k && (k != 2 || x.rnd = rnd))

/-- Table entries that stay beside a new entry for register d; a seventeenth entry does not exist (R87, R92). -/
def Crew.otherForms (c : Crew) (d : Nat) : List Form := c.forms.filter (fun x => x.reg != d)

/-- The form over which the instruction composes, where all conditions of R91 hold. -/
def Crew.composes (c : Crew) (i : Instr) (m : LaneMask) : Option Form :=
  let f := info i
  match composeKind i, c.sourceForms f, f.dst with
  | some k, x :: more, some o =>
    let d := c.win o.1
    let sources :=
      match more, i with
      | [], _ => true
      | [y], .iadd .. | [y], .isub .. => y.sym = x.sym && y.agrees k f.rnd
      | _, _ => false
    let rk := k.getD x.kind
    let kept := (List.range 32).filter (fun l => !(c.active i m).contains l && !(c.zeroed i m).contains l)
    let dest :=
      match c.form d with
      | none => true
      | some y =>
        if y.sym != x.sym then c.writesAll i m
        else kept.all (fun l => (y.lane l).held || y.kind = rk || (y.kind = 0 && rk = 1))
    if sources && x.agrees k f.rnd && dest && !f.strict && f.rows = 1 && f.cols = 1 &&
        decide ((c.otherForms d).length < 16) then some x
    else none
  | _, _, _ => none

/-- A pending register keeps the instruction from issuing (R91, R92): a source is pending and the instruction does not
compose, or d is pending and the instruction neither composes nor writes all of it. -/
def Crew.formBlocked (c : Crew) (i : Instr) (m : LaneMask) : Bool :=
  let f := info i
  (c.composes i m).isNone &&
    (f.readRegs.any (fun n => c.pendingReg (c.win n)) ||
      (f.writeRegs.any (fun n => c.pendingReg (c.win n)) && !c.writesAll i m))

/-- An operand of one lane as a part. -/
def Crew.part (c : Crew) (rk l : Nat) (o : Nat × Nat) : Part :=
  match c.form (c.win o.1) with
  | none => .known (c.operand o (0, 0) l)
  | some x =>
    let y := asKind x rk (x.lane l)
    if y.held then .known y.offset.toNat else .form y.scale.toNat y.offset.toNat

/-- The value of a part that is known. -/
def Part.val : Part → Nat
  | .known v => v
  | .form _ o => o

def Part.isKnown : Part → Bool
  | .known _ => true
  | .form _ _ => false

/-- The new form of d (R91); `fn` is the instruction's own result on known values. -/
def Crew.newForm (c : Crew) (i : Instr) (m : LaneMask) (x : Form) (fn : (Nat → Nat) → Nat) (avail : Nat) : Form :=
  let f := info i
  let d := c.win (f.dst.getD (0, 1)).1
  let rk := ((composeKind i).getD none).getD x.kind
  let lane (l : Nat) : LaneForm :=
    if (c.active i m).contains l then
      let ps := f.srcList.map (c.part rk l)
      if ps.all Part.isKnown then
        { held := true, offset := BitVec.ofNat 32 (fn (fun k => (ps[k]?.getD (.known 0)).val)) }
      else
        match composeLane i ps with
        | some (s, o) => { scale := BitVec.ofNat 32 s, offset := BitVec.ofNat 32 o, held := false }
        | none => {}
    else if (c.zeroed i m).contains l then { held := true, offset := 0 }
    else
      match c.form d with
      | some y => asKind y rk (y.lane l)
      | none => { held := true, offset := (c.slot d l).val }
  { reg := d, sym := x.sym, kind := rk,
    rnd := if rk < 2 then 0 else if x.kind = rk then x.rnd else f.rnd,
    lanes := (List.range 32).map lane, avail := avail }

/-- Issue a composing instruction (R91, R97): reads are counted, d's lanes take the count, the entry is replaced. -/
def Crew.compose (c : Crew) (i : Instr) (m : LaneMask) (x : Form) (fn : (Nat → Nat) → Nat) (avail : Nat) : Crew :=
  let f := info i
  let new := c.newForm i m x fn avail
  let act := c.active i m
  let zer := c.zeroed i m
  let c := c.countReads f.readRegs act
  let c := (act ++ zer).foldl (fun c l => c.setSlot new.reg l
    { c.slot new.reg l with cnt := BitVec.ofNat 2 f.cnt, rel := false }) c
  ({ c with forms := c.otherForms new.reg ++ [new] }).dropDeadForms

/-- The value of a form in a lane once σ is x (R95). -/
def Form.value (f : Form) (l : Nat) (x : Word) : Word :=
  let y := f.lane l
  if y.held then y.offset
  else if f.kind = 0 then x
  else if f.kind = 1 then y.scale * x + y.offset
  else
    let xin := Fmt.fp32.decode (f.rnd = 5) x.toNat
    BitVec.ofNat 32 (Fmt.fp32.round f.rnd (FVal.add f.rnd ((fp y.scale.toNat).mul xin) (fp y.offset.toNat)))

/-- Write a form's register, skipping released lanes; counts stay (R95, R97). -/
def Crew.writeForm (c : Crew) (f : Form) (x : Nat → Word) : Crew :=
  (List.range 32).foldl (fun c l =>
    let y := c.slot f.reg l
    if y.rel then c else c.setSlot f.reg l { y with val := f.value l (x l) }) c

/-- Resolution of a symbol in cycle `now` (R95, R96): the entries whose composition has completed are written in one
step; the others stay for the cycle in which they complete. -/
def Crew.resolve (c : Crew) (sym : Nat) (x : Nat → Word) (now : Nat) : Crew :=
  let mine := c.forms.filter (fun f => f.sym = sym && decide (f.avail ≤ now))
  let c := mine.foldl (fun c f => c.writeForm f x) c
  { c with forms := c.forms.filter (fun f => !(f.sym = sym && decide (f.avail ≤ now))) }

/-- A near-window store to a lane of a pending register (R92): the lane is held, and an entry whose lanes are all
held is released with its values in the register. -/
def Crew.holdLane (c : Crew) (r l : Nat) (v : Word) : Crew :=
  match c.form r with
  | none => c
  | some f =>
    let ls : List LaneForm := f.lanes.zipIdx.map (fun y => if y.2 = l then { y.1 with held := true, offset := v } else y.1)
    let g : Form := { f with lanes := ls }
    if ls.all LaneForm.held then ({ c with forms := c.otherForms r }).writeForm g (fun _ => 0)
    else { c with forms := c.forms.map (fun (y : Form) => if y.reg = r then g else y) }

/-- Value of a lane of a register as a store of some of its bytes finds it: a held lane's stands in the form (R92). In a lane that is not
held the bytes that are not stored are those of the register's slot (DESIGN CHOICE, log 115). -/
def Crew.laneWord (c : Crew) (r l : Nat) : Word :=
  match c.form r with
  | some f => if (f.lane l).held then (f.lane l).offset else (c.slot r l).val
  | none => (c.slot r l).val

/-- Release the entry of every register in a list: a write of all 32 lanes does so (R92). -/
def Crew.releaseForms (c : Crew) (rs : List Nat) : Crew :=
  if rs.any c.pendingReg then { c with forms := c.forms.filter (fun f => !rs.contains f.reg) } else c

end Sys2Proof.Machine
end

