-- ==== Sys2Proof/Machine/Issue.lean ====
section
/-! DEFINITION. What every issued instruction shares (spec/01): outstanding counters (R29), what holds an instruction
back (R17, R92, R94, R153), the register cache (R24), and the end of an issue, which advances the threads and marks
results as in flight (R20, R30, R32). -/

namespace Sys2Proof.Machine

abbrev Out := Host.Outcome State Fault Refusal

/-! ## Outstanding counters (R29) -/

/-- The four outstanding counters. -/
inductive Counter where
  | loads | stores | copies | tiles
deriving DecidableEq, Repr

/-- The counter in which an instruction is counted (R29, R151, R179, R182, R183). -/
def counterOf (i : Instr) : Option Counter :=
  match i with
  | .ld .. | .lda .. | .ldk .. | .rcn .. | .rcnx .. | .atom .. | .atomr .. | .atom64 .. | .dqpop .. | .dqsteal ..
  | .leaseFill .. => some .loads
  | .st .. | .stl .. | .red .. | .dqpush .. | .cctlEvict .. | .leaseSpill .. | .sysPost .. | .sysTlbinv .. => some .stores
  | .copy .. | .put .. | .publ .. | .coll .. => some .copies
  | .mload .. | .amodeStorage .. | .amodeCompute .. | .mmv .. | .mmg .. | .acc .. => some .tiles
  | _ => none

def Counter.limit : Counter → Nat
  | .loads => 63 | .stores => 31 | .copies => 63 | .tiles => 15

def Crew.count (c : Crew) : Counter → Nat
  | .loads => c.loads | .stores => c.stores | .copies => c.copies | .tiles => c.tiles

def Crew.inc (c : Crew) : Counter → Crew
  | .loads => { c with loads := c.loads + 1 }
  | .stores => { c with stores := c.stores + 1 }
  | .copies => { c with copies := c.copies + 1 }
  | .tiles => { c with tiles := c.tiles + 1 }

def Crew.decr (c : Crew) : Counter → Crew
  | .loads => { c with loads := c.loads - 1 }
  | .stores => { c with stores := c.stores - 1 }
  | .copies => { c with copies := c.copies - 1 }
  | .tiles => { c with tiles := c.tiles - 1 }

def Crew.counterFull (c : Crew) (i : Instr) : Bool :=
  match counterOf i with | none => false | some k => k.limit ≤ c.count k

/-! ## What holds an instruction back -/

/-- Register sources and predicates whose results are not available, or a destination that a memory request still
brings (R17, R32; log 13). -/
def Crew.sourceBusy (c : Crew) (i : Instr) (now : Nat) : Bool :=
  let f := info i
  let late (k : Nat) : Bool := now < Tab.get 0 c.busy k
  f.readRegs.any (fun n => late (c.win n) || c.inFlight.contains (c.win n)) ||
  f.writeRegs.any (fun n => c.inFlight.contains (c.win n)) ||
  f.predReads.any (fun p => late (512 + p))

/-- Rows that make accesses, which a pending acquire or full fence holds back (R146, R153). -/
def isAccess (i : Instr) : Bool :=
  match i with
  | .ld .. | .lda .. | .ldk .. | .rcn .. | .rcnx .. | .atom .. | .atomr .. | .atom64 .. | .red .. | .st .. | .stl ..
  | .dqpush .. | .dqpop .. | .dqsteal .. | .binit .. | .arv .. | .bexp .. | .waitp .. | .tryw .. | .copy .. | .put ..
  | .publ .. | .coll .. | .mload .. | .amodeStorage .. | .amodeCompute .. | .mmv .. | .mmg .. | .acc ..
  | .cctlInv .. | .cctlInvall .. | .cctlEvict .. | .cctlDemote .. | .pref .. | .leaseSpill .. | .leaseFill ..
  | .sysPost .. | .fence .. => true
  | _ => false

/-- Stores, releases and engine instructions, which a release fence holds back (R153). -/
def isStoreLike (i : Instr) : Bool :=
  match i with
  | .st .. | .stl .. | .red .. | .atom .. | .atomr .. | .atom64 .. | .rcn .. | .rcnx .. | .dqpush .. | .dqpop ..
  | .dqsteal .. | .binit .. | .arv .. | .bexp .. | .copy .. | .put .. | .publ .. | .coll .. | .mload ..
  | .amodeStorage .. | .amodeCompute .. | .mmv .. | .mmg .. | .acc .. | .cctlEvict .. | .sysPost ..
  | .leaseSpill .. => true
  | _ => false

/-- The fences that hold the instruction back. -/
def Crew.fenceBlocked (c : Crew) (i : Instr) : Bool :=
  (isAccess i && (c.fenceAll != [] || c.fenceLoads != [])) || (isStoreLike i && (c.fenceStores != [] || c.fenceSys))

/-- Instructions that wait for an empty egress queue whatever their address (R94). -/
def egressHeld (i : Instr) : Bool :=
  match i with
  | .atom .. | .atomr .. | .atom64 .. | .rcn .. | .rcnx .. | .dqpush .. | .dqpop .. | .dqsteal .. | .stl ..
  | .copy .. | .put .. | .publ .. | .coll .. | .sysPost .. => true
  | .arv _ _ r _ _ => r = 0
  | .fence _ o _ _ => o != 1
  | _ => false

/-- Releases that wait for the data of every earlier deferring load (R94). -/
def waitsForDeferred (i : Instr) : Bool :=
  match i with
  | .arv _ _ r _ _ => r = 0
  | .fence _ o _ _ => o != 1
  | _ => false

/-- Releases of R271 wait on earlier deferring loads' data; symbols whose data has arrived do not count. -/
def Crew.deferredWait (c : Crew) (i : Instr) : Bool := waitsForDeferred i && c.syms.any (fun y => !y.resolved)

/-- A store of 8 to 32 bits with pending data does not block on it (R93), unless it is strict (R37, R92). -/
def storeExempt (i : Instr) : Bool :=
  match i with
  | .st _ z _ _ _ _ | .stl _ z _ _ _ _ => z.toNat ≤ 4 && !(info i).strict
  | _ => false

/-- The form table keeps the instruction from issuing: of an exempt store only the address counts. -/
def Crew.formHolds (c : Crew) (i : Instr) (m : LaneMask) : Bool :=
  if storeExempt i then ((info i).srcs.take 1).any (fun o => (opRegs o (0, 0)).any (fun n => c.pendingReg (c.win n)))
  else c.formBlocked i m

/-- The conditions that keep a decoded instruction of a path from issuing and that the crew alone decides: the form
table, the counters, fences and the egress queue. -/
def Crew.held_ (c : Crew) (i : Instr) (m : LaneMask) : Bool :=
  c.formHolds i m || c.counterFull i || c.fenceBlocked i || (egressHeld i && c.egress != []) || c.deferredWait i

/-- The active lanes of a WAIT whose counters do not yet all stand at or below the stated values: its threads are not ready
(R166). -/
def Crew.waitHolds (c : Crew) (i : Instr) (m : LaneMask) : Bool :=
  match i with
  | .wait _ l st k t _ =>
    c.active i m != [] && !(decide (c.loads ≤ l.toNat) && decide (c.stores ≤ st.toNat) && decide (c.copies ≤ k.toNat) &&
      decide (c.tiles ≤ t.toNat))
  | _ => false

/-! ## The register cache (R24) -/

/-- Array bank of a crew register's 128 bytes in its region (R239, R241). -/
def Crew.regBank (c : Crew) (r : Nat) : Nat := ((c.idx * c.nregs + r) * 128 / 16384) * 4 + (c.idx * c.nregs + r) % 4

/-- One register enters the cache of six as the most recently used. -/
def touchCache (l : List Nat) (r : Nat) : List Nat := (r :: l.filter (· != r)).take 6

/-- Cycles that misses add: 2 where a register misses, 1 more where two in one bank do (R24). -/
def Crew.missCycles (c : Crew) (rs : List Nat) : Nat :=
  let miss := rs.eraseDups.filter (fun r => !c.rcache.contains r)
  let banks := miss.map c.regBank
  (if miss = [] then 0 else 2) + (if banks.eraseDups.length < banks.length then 1 else 0)

/-! ## The end of an issue -/

/-- Where the path's threads stand after an instruction of n words (R42). -/
def nextPc (u : Issue) (i : Instr) : BitVec 64 := u.pc + BitVec.ofNat 64 (4 * lengthWords i)

/-- Cycles that the instruction's reads add to its latency (R24). -/
def Crew.missOf (c : Crew) (i : Instr) : Nat := c.missCycles ((info i).readRegs.map c.win)

/-- The path's threads advance; their wait counters return to 0 (R21). The control class delays the path by its two
cycles and those that its reads add (R24, R30). -/
def Crew.advance (c : Crew) (u : Issue) (i : Instr) (now : Nat) : Crew :=
  let due := now + (if (info i).cls = .control then 2 + c.missOf i else 1)
  c.onThreads (lanesOf u.lanes) (fun t => { t with pc := nextPc u i, wait := 0, due := due })

/-- Mark results as available `lat` cycles from now (R32). -/
def Crew.markBusy (c : Crew) (keys : List Nat) (until_ now : Nat) : Crew :=
  { c with busy := keys.foldl (fun t k => Tab.set 0 t k until_) (c.busy.filter (fun p => decide (now < p.2))) }

/-- Latency of an instruction's own results: the class's (R30); a wait's predicates follow R259 (log 13). -/
def resultLatency (i : Instr) : Nat :=
  match i with
  | .waitp .. | .tryw .. => 4
  | _ => (info i).cls.latency

/-- Results of an instruction, a deferring load's form among them (R89), are available after `lat` cycles and the cache misses of
its reads. -/
def Crew.settleWith (c : Crew) (i : Instr) (lat now : Nat) : Crew :=
  let f := info i
  let reads := f.readRegs.map c.win
  let writes := f.writeRegs.map c.win
  let c := c.markBusy (writes ++ f.predWrites.map (512 + ·)) (now + lat + c.missOf i) now
  { c with rcache := (reads ++ writes).foldl touchCache c.rcache }

/-- Results of an instruction that writes registers or predicates by itself. -/
def Crew.settleResults (c : Crew) (i : Instr) (now : Nat) : Crew := c.settleWith i (resultLatency i) now

/-- The issue is charged: the crew's last issue, the slot's occupation, which the second path of a cycle does not shorten, and the
residency timer (R20, R30, R263). -/
def State.charge (s : State) (u : Issue) (i : Instr) : State :=
  let s := s.modCrew u.crew (fun c => { c with lastIssue := s.cycle, brought := c.brought.filter (fun b => b.1 != u.pc) })
  s.modCore (s.crew u.crew).core (fun g => { g with
    slotBusy := Tab.set 0 g.slotBusy u.slot (max (Tab.get 0 g.slotBusy u.slot) (s.cycle + (info i).cls.occupies)), idleFrom := none, reported := [] })

/-- An instruction that acts on its own crew alone: its effect, its reads counted before it, its threads advanced. -/
def State.finish (s : State) (u : Issue) (i : Instr) (c : Crew) : State :=
  (s.setCrew u.crew ((c.advance u i s.cycle).settleResults i s.cycle)).charge u i

/-- As `finish`, with another result latency than the class's. -/
def State.finishWith (s : State) (u : Issue) (i : Instr) (lat : Nat) (c : Crew) : State :=
  (s.setCrew u.crew ((c.advance u i s.cycle).settleWith i lat s.cycle)).charge u i

/-! ## Issuing -/

/-- Take the trap of an illegal instruction (R60). -/
def State.illegal (s : State) (u : Issue) (why : Nat) : State := s.takeTrap u.crew .illegal u.pc why (some u.lanes)

/-- The crew's mode admits the instruction: WRSYS of a trap register and SYS.tret in a handler, SYS.tlbinv there and in a region
that holds translation control (R138, R180, R183). -/
def State.modeOk (s : State) (k : Nat) (i : Instr) : Bool :=
  match i with
  | .wrsys _ _ n _ => n = 5 || (s.crew k).handler
  | .sysTret .. => (s.crew k).handler
  | .sysTlbinv .. => (s.crew k).handler || (s.record (crewSett k) (crewRec k)).xlate
  | _ => true

/-- Reason 0x04 of the base word beside what the encoding raises: the lowest reason is reported (R60). -/
def withReason4 (why : Option Nat) : Nat :=
  match why with
  | none => 4
  | some w => if w % 256 ≤ 4 then w else 4

/-- TRAPINFO of the illegal-instruction trap that the instruction raises in a crew, if it raises one: by its fields, or by the
crew's mode with reason 0x04 (R60). -/
def State.illegalIn (s : State) (k : Nat) (i : Instr) : Option Nat :=
  if s.modeOk k i then illegalOf i else some (withReason4 (illegalOf i))

/-- The frame of every instruction's meaning. Without an issue in progress there is nothing to do. An illegal field
traps first (R60); an instruction that is held does not issue; then come the traps of R48, and then `body`, the
instruction's own effect. -/
def State.issue (s : State) (i : Instr) (body : Issue → Out) : Out :=
  match s.cur with
  | none => .next s
  | some u =>
    match s.illegalIn u.crew i with
    | some why => .next (s.illegal u why)
    | none =>
      let c := s.crew u.crew
      if c.held_ i u.lanes then .next s
      else
        match c.operandTrap i u with
        | some (t, why) => .next (s.takeTrap u.crew t u.pc why (some u.lanes))
        | none => body u

end Sys2Proof.Machine
end

