-- ==== Sys2Proof/Machine/Alu.lean ====
section
/-! DEFINITION. The procedure of R102, once for every instruction that reads its operands lane by lane and writes a
register or a predicate pair, and the lane arithmetic that the families share. -/

namespace Sys2Proof.Machine

/-- One result: window register of the element's destination, lane, value. -/
abbrev Res := Nat × Nat × Nat

/-- Results of the active lanes, element by element (R102): `fn` gets the lane, the element's index C·i + j and the
operands in the order of `Info.srcList`. -/
def Crew.results (c : Crew) (i : Instr) (u : Issue) (fn : Nat → Nat → (Nat → Nat) → Nat) : List Res :=
  let f := info i
  let d := f.dst.getD (0, 1)
  f.elems.zipIdx.flatMap (fun e => (c.active i u.lanes).map (fun l =>
    (opField d e.1, l, fn l e.2 (fun k => (c.operandValues f e.1 l)[k]?.getD 0))))

/-- The zeros that a zeroing mask writes (R38), those of a CONS without an active lane included (log 123). -/
def Crew.zeros (c : Crew) (i : Instr) (u : Issue) : List Res :=
  let f := info i
  f.elems.flatMap (fun e => (c.zeroed i u.lanes).map (fun l => (opField (f.dst.getD (0, 1)) e, l, 0)))

/-- Write a list of results with the instruction's count (R39). -/
def Crew.writeResults (c : Crew) (f : Info) (rs : List Res) : Crew :=
  rs.foldl (fun c r => c.writeWide r.1 (f.dst.getD (0, 1)).2 r.2.1 r.2.2 f.cnt) c

/-- R102 on known operands: every read before every write (R47). -/
def Crew.compute (c : Crew) (i : Instr) (u : Issue) (fn : Nat → Nat → (Nat → Nat) → Nat) : Crew :=
  let f := info i
  let rs := c.results i u fn ++ c.zeros i u
  ((c.countReads f.readRegs (c.active i u.lanes)).releaseForms (f.writeRegs.map c.win)).writeResults f rs

/-- An instruction that writes registers: on a pending source it composes (R91), otherwise it computes. -/
def aluAt (i : Instr) (fn : Crew → Issue → Nat → Nat → (Nat → Nat) → Nat) (s : State) : Out :=
  s.issue i (fun u =>
    let c := s.crew u.crew
    match c.composes i u.lanes with
    | some x => .next (s.finish u i (c.compose i u.lanes x (fn c u 0 0) (s.cycle + (info i).cls.latency)))
    | none => .next (s.finish u i (c.compute i u (fn c u))))

/-- An instruction whose result in a lane depends on that lane's operands alone. -/
def alu (i : Instr) (fn : (Nat → Nat) → Nat) (s : State) : Out := aluAt i (fun _ _ _ _ v => fn v) s

/-- An instruction that writes a predicate pair (R34, R127); a CONS without an active lane still gives its masked lanes what R38 says
(log 123). -/
def Crew.computePair (c : Crew) (i : Instr) (u : Issue) (fn : Nat → (Nat → Nat) → Bool) : Crew :=
  let f := info i
  let P := f.pdst.getD 0
  let act := c.active i u.lanes
  let rs := act.map (fun l => (l, fn l (fun k => (c.operandValues f (0, 0) l)[k]?.getD 0)))
  let zer := c.zeroed i u.lanes
  let c := c.countReads f.readRegs act
  let c := rs.foldl (fun c r => c.writePair r.1 P r.2) c
  zer.foldl (fun c l => c.clearPair l P) c

/-- The frame of an instruction that writes a predicate pair. -/
def aluPair (i : Instr) (fn : Crew → Issue → Nat → (Nat → Nat) → Bool) (s : State) : Out :=
  s.issue i (fun u => .next (s.finish u i ((s.crew u.crew).computePair i u (fn (s.crew u.crew) u))))

/-! ## Integers -/

/-- A lane word read as i32. -/
def S (v : Nat) : Int := sext 32 v
/-- A 7-bit immediate as a word, sign-extended. -/
def immWord (k : BitVec 7) : Nat := wrap 32 k.toInt
/-- Saturation to i32 and to n32. -/
def satS (v : Int) : Nat := wrap 32 (sat v (-(2 ^ 31)) (2 ^ 31 - 1))
def satN (v : Int) : Nat := (sat v 0 (2 ^ 32 - 1)).toNat
def popCount (a : Nat) : Nat := ((List.range 32).filter (fun k => a.testBit k)).length
def leadingZeros (a : Nat) : Nat := if a = 0 then 32 else 31 - Nat.log2 a
def bitReverse (a : Nat) : Nat := (List.range 32).foldl (fun r k => if a.testBit k then r + 2 ^ (31 - k) else r) 0
def lowestBit (a : Nat) : Nat := ((List.range 32).find? (fun k => a.testBit k)).getD 32
def notWord (a : Nat) : Nat := 2 ^ 32 - 1 - a % 2 ^ 32
/-- Shifts by a whole word (R109). -/
def shl32 (a n : Nat) : Nat := if n < 32 then m32 (a * 2 ^ n) else 0
def shr32 (a n : Nat) : Nat := if n < 32 then a / 2 ^ n else 0
def sar32 (a n : Nat) : Nat := wrap 32 (S a / 2 ^ min n 32)

/-- Offset and width of a control pair (R110). -/
def ctlOff (p : Nat) : Nat := p % 256
def ctlWidth (p : Nat) : Nat := min (p / 2 ^ 32 % 256) 32

/-- The funnel shifts (R111). -/
def funnel (left : Bool) (a dold p : Nat) : Nat :=
  let w := ctlWidth p
  let o := min (ctlOff p) w
  let V := a % 2 ^ w * 2 ^ w + dold % 2 ^ w
  if w = 0 then 0
  else if left then V * 2 ^ o / 2 ^ w % 2 ^ w
  else V / 2 ^ o % 2 ^ w

/-- BFXS and BFXN (R112): a position above bit 31 reads as the sign, or as 0. -/
def fieldS (a p : Nat) : Nat :=
  let w := ctlWidth p
  if w = 0 then 0 else wrap 32 (sext w (wrap 64 (S a / 2 ^ ctlOff p)))
def fieldN (a p : Nat) : Nat := a / 2 ^ ctlOff p % 2 ^ ctlWidth p

/-- BFI (R112): field bits above bit 31 are dropped. -/
def insertField (dold a p : Nat) : Nat :=
  let o := ctlOff p
  let w := ctlWidth p
  m32 (dold % 2 ^ o + a % 2 ^ w * 2 ^ o + dold / 2 ^ (o + w) * 2 ^ (o + w))

/-- BMIX (R113): bytes in ascending order, each fill looking at the byte below. -/
def bmix (a dold b : Nat) : Nat :=
  let byte (x k : Nat) : Nat := x / 2 ^ (8 * k) % 256
  let bit (k : Nat) : Bool := b.testBit k
  let put (below : Nat) (k : Nat) : Nat :=
    if !bit (12 + k) then byte (if bit (8 + k) then dold else a) (b / 2 ^ (2 * k) % 4)
    else if !bit 16 || k = 0 then 0
    else if 128 ≤ below then 255 else 0
  let b0 := put 0 0
  let b1 := put b0 1
  let b2 := put b1 2
  let b3 := put b2 3
  b0 + 256 * b1 + 65536 * b2 + 16777216 * b3

/-! ## Floating point (R114) -/

/-- An FP32 operand under the instruction's rounding mode: flushed under RNE-FTZ. -/
def fin32 (m a : Nat) : FVal := Fmt.fp32.decode (m = 5) a
def fadd32 (m a b : Nat) : Nat := Fmt.fp32.round m (FVal.add m (fin32 m a) (fin32 m b))
def fsub32 (m a b : Nat) : Nat := Fmt.fp32.round m (FVal.add m (fin32 m a) (fin32 m b).neg)
def fmul32 (m a b : Nat) : Nat := Fmt.fp32.round m ((fin32 m a).mul (fin32 m b))
def ffma32 (m a b c : Nat) : Nat := Fmt.fp32.round m (FVal.add m ((fin32 m a).mul (fin32 m b)) (fin32 m c))

/-- A function of one FP32 value, rounded once (R116). -/
def ffun (m : Nat) (f : FVal → FVal) (a : Nat) : Nat := Fmt.fp32.round m (f (fin32 m a))

/-- An integral value with the operand's sign on a zero (R117). -/
def integral (neg : Bool) (k : Int) : FVal := .fin (if k = 0 then neg else k < 0) k.natAbs 0

/-- The signed numerator of a finite value over 2^(-e). -/
def numer (neg : Bool) (m : Nat) : Int := if neg then -(m : Int) else m

/-- Functions to an integral value; infinities, NaN and integral values stay (R117). -/
def toIntegral (f : Bool → Nat → Int → Int) (v : FVal) : FVal :=
  match v with
  | .fin neg m e => if 0 ≤ e then .fin neg m e else integral neg (f neg m e)
  | w => w
def fFloor : FVal → FVal := toIntegral (fun neg m e => numer neg m / 2 ^ (-e).toNat)
def fCeil : FVal → FVal := toIntegral (fun neg m e => -(-(numer neg m) / 2 ^ (-e).toNat))
def fTrunc : FVal → FVal := toIntegral (fun neg m e => numer neg (m / 2 ^ (-e).toNat))
def fRint (mode : Nat) : FVal → FVal := toIntegral (fun neg m e => roundInteger mode neg m e)
def fFract : FVal → FVal
  | .nan | .inf _ => .nan
  | .fin neg m e => if 0 ≤ e then .fin false 0 0 else .fin false (numer neg m % 2 ^ (-e).toNat).toNat e

/-- Element e of 16 or 8 bits of a lane word. -/
def half (a e : Nat) : Nat := a / 2 ^ (16 * e) % 2 ^ 16
def byteOf (a e : Nat) : Nat := a / 2 ^ (8 * e) % 256

/-- The packed forms (R118), both elements. -/
def packed2 (F : Fmt) (m : Nat) (f : FVal → FVal → FVal → FVal) (a b c : Nat) : Nat :=
  let one (e : Nat) : Nat :=
    F.round m (f (F.decode (m = 5) (half a e)) (F.decode (m = 5) (half b e)) (F.decode (m = 5) (half c e)))
  one 0 + 65536 * one 1

/-- The floating dot forms (R119): n elements of w bits, exact products and sum, one rounding. -/
def dotF (F : Fmt) (w n m a b c : Nat) : Nat :=
  let el (x e : Nat) : FVal := F.decode (m = 5) (x / 2 ^ (w * e) % 2 ^ w)
  Fmt.fp32.round m (FVal.sum m (fin32 m c :: (List.range n).map (fun e => (el a e).mul (el b e))))

/-- The integer dot forms (R119). -/
def dotI (f : Nat → Int) (a b c : Nat) : Nat :=
  wrap 32 ((List.range 4).foldl (fun t e => t + f (byteOf a e) * sext 8 (byteOf b e)) (c : Int))

/-! ## Conversion -/

/-- The floating formats of CVT's function field (R57). -/
def cvtFmt (F : Nat) : Fmt :=
  match F with
  | 9 => .bf16 | 10 => .fp16 | 11 => .e4m3 | 12 => .e5m2 | 13 => .e2m3 | 14 => .e3m2 | _ => .e2m1

/-- Width in bits and signedness of the integer formats. -/
def cvtInt (F : Nat) : Nat × Bool := (8 * 2 ^ (F % 4), F < 4)

/-- CVT from FP32 (R120). -/
def cvtTo (m F sel a dold : Nat) : Nat :=
  let v := fin32 m a
  let e :=
    if F < 8 then
      let n := (cvtInt F).1
      if (cvtInt F).2 then wrap n (roundInt m (-(2 ^ (n - 1))) (2 ^ (n - 1) - 1) v)
      else (roundInt m 0 (2 ^ n - 1) v).toNat
    else (cvtFmt F).round m v
  let w := cvtBits (BitVec.ofNat 4 F)
  if 32 ≤ w then e else putBits dold (w * sel + w - 1) (w * sel) e

/-- CVT to FP32 (R120). -/
def cvtFrom (m F sel a : Nat) : Nat :=
  let w := cvtBits (BitVec.ofNat 4 F)
  let e := if 32 ≤ w then a else a / 2 ^ (w * sel) % 2 ^ w
  let v :=
    if F < 8 then (if (cvtInt F).2 then FVal.ofInt (sext w e) else FVal.ofInt e)
    else (cvtFmt F).decode (m = 5) e
  Fmt.fp32.round m v

/-- MXSCL (R121). -/
def mxscl (emax : Int) (a : Nat) : Nat :=
  match Fmt.fp32.decode false a with
  | .nan | .inf _ => 0xFF
  | .fin _ m e => if m = 0 then 0x7F else (sat ((Nat.log2 m : Int) + e - emax + 127) 0 254).toNat

/-- The scale byte of a lane in element e (R85, R122), read from the scale register as it stood before this cycle. -/
def scaleByte (c : Crew) (u : Issue) (i : Instr) (e l : Nat) : Nat :=
  let q := 4 * e + l / 8 + 32 * scaleSel i
  byteOf (beforeSlot u (c.win ((info i).scale.getD 0)) (q / 4)).val.toNat (q % 4)

/-- CVTMX and QMX (R122): a·2^(X−127), or a·2^(127−X). -/
def mxScaled (m : Nat) (up : Bool) (x a : Nat) : Nat :=
  Fmt.fp32.round m ((fin32 m a).scale ((e8m0 x).map (fun k => if up then k else -k)))

/-- DSMUL (R123): the value of the DS8 byte in A times B. -/
def dsmul (a b : Nat) : Nat := wrap 32 (ds8Value (a % 256) * (b : Int))

/-- One byte of a word replaced. -/
def putByte (x k v : Nat) : Nat := putBits x (8 * k + 7) (8 * k) v

end Sys2Proof.Machine
end

