-- ==== Sys2Proof/WellFormed.lean ====
section
/-! DEFINITION. Well-formed instructions: rows with an encoding whose fields raise no reason of R60. -/

namespace Sys2Proof

/-- The term is an instruction that has an encoding, and no field of it is illegal (R60). -/
def Instr.wf (i : Instr) : Bool :=
  (Sys2Proof.Machine.info i).enc && (Sys2Proof.Machine.illegalOf i).isNone

end Sys2Proof
end

