-- ==== Sys2Proof/Decode.lean ====
section
/-! DEFINITION. The decoder (R33 to R60), total on any bytes: an instruction with its length, or the TRAPINFO of
the illegal-instruction trap. After it the encoder, written from the same tables. -/

namespace Sys2Proof

open Sys2Proof.Machine

/-- The fields of the base-word formats (R33). -/
def fM (w : Word) : BitVec 7 := w.extractLsb' 25 7
def fD (w : Word) : BitVec 7 := w.extractLsb' 18 7
def fA (w : Word) : BitVec 7 := w.extractLsb' 11 7
def fB (w : Word) : BitVec 7 := w.extractLsb' 4 7
def fG (w : Word) : BitVec 4 := w.extractLsb' 0 4
def fI14 (w : Word) : BitVec 14 := w.extractLsb' 4 14
def fI21 (w : Word) : BitVec 21 := w.extractLsb' 4 21

/-- The formats the other way round. -/
def reg3 (m : Nat) (d a b : BitVec 7) (g : BitVec 4) : Word := BitVec.ofNat 7 m ++ d ++ a ++ b ++ g
def ri14 (m : Nat) (d : BitVec 7) (i : BitVec 14) (g : BitVec 4) : Word := BitVec.ofNat 7 m ++ d ++ i ++ g
def b21 (m : Nat) (i : BitVec 21) (g : BitVec 4) : Word := BitVec.ofNat 7 m ++ i ++ g

/-- The prefix word (R37). -/
def pfxOf (w : Word) : Pfx :=
  { mask := w.extractLsb' 21 4, rnd := w.extractLsb' 18 3, c := w.extractLsb' 11 7, mz := w.extractLsb' 10 1 = 1,
    cnt := w.extractLsb' 8 2, rows := w.extractLsb' 6 2, cols := w.extractLsb' 4 2,
    strict := w.extractLsb' 3 1 = 1 }

def encodePfx (p : Pfx) : Word :=
  127#7 ++ p.mask ++ p.rnd ++ p.c ++ BitVec.ofBool p.mz ++ p.cnt ++ p.rows ++ p.cols ++ BitVec.ofBool p.strict ++ 0#3

/-- The function codes of FSF (R55, R56). -/
def decodeFsf (px : Option Pfx) (w : Word) : Except Nat Instr :=
  match (fB w).toNat with
  | 0 => .ok (.fsfRcp px (fD w) (fA w) (fG w))
  | 1 => .ok (.fsfRsq px (fD w) (fA w) (fG w))
  | 2 => .ok (.fsfSqrt px (fD w) (fA w) (fG w))
  | 3 => .ok (.fsfExp2 px (fD w) (fA w) (fG w))
  | 4 => .ok (.fsfLog2 px (fD w) (fA w) (fG w))
  | 5 => .ok (.fsfSinpi px (fD w) (fA w) (fG w))
  | 6 => .ok (.fsfCospi px (fD w) (fA w) (fG w))
  | 7 => .ok (.fsfTanh px (fD w) (fA w) (fG w))
  | 8 => .ok (.fsfAbs px (fD w) (fA w) (fG w))
  | 9 => .ok (.fsfNeg px (fD w) (fA w) (fG w))
  | 10 => .ok (.fsfFract px (fD w) (fA w) (fG w))
  | 11 => .ok (.fsfFloor px (fD w) (fA w) (fG w))
  | 12 => .ok (.fsfCeil px (fD w) (fA w) (fG w))
  | 13 => .ok (.fsfTrunc px (fD w) (fA w) (fG w))
  | 14 => .ok (.fsfRint px (fD w) (fA w) (fG w))
  | _ => .error 2

/-- The function codes of MXSCL (R55, R56). -/
def decodeMxscl (px : Option Pfx) (w : Word) : Except Nat Instr :=
  match (fB w).toNat with
  | 0 => .ok (.mxsclE4m3 px (fD w) (fA w) (fG w))
  | 1 => .ok (.mxsclE5m2 px (fD w) (fA w) (fG w))
  | 2 => .ok (.mxsclE2m3 px (fD w) (fA w) (fG w))
  | 3 => .ok (.mxsclE3m2 px (fD w) (fA w) (fG w))
  | 4 => .ok (.mxsclE2m1 px (fD w) (fA w) (fG w))
  | 5 => .ok (.mxsclMxint8 px (fD w) (fA w) (fG w))
  | _ => .error 2

/-- The DSCVT operations by bits 6:4 of the function code (R58). -/
def decodeDscvt (px : Option Pfx) (w : Word) : Except Nat Instr :=
  match ((fB w).extractLsb' 4 3).toNat with
  | 0 => .ok (.dscvtFromf32 px (fD w) (fA w) ((fB w).extractLsb' 0 2) (fG w))
  | 1 => .ok (.dscvtTof32 px (fD w) (fA w) ((fB w).extractLsb' 0 2) (fG w))
  | 2 => .ok (.dscvtFromi32 px (fD w) (fA w) ((fB w).extractLsb' 0 2) (fG w))
  | 3 => .ok (.dscvtToi32 px (fD w) (fA w) ((fB w).extractLsb' 0 2) (fG w))
  | 4 => if (fB w).extractLsb' 0 2 != 0 then .error 4 else .ok (.dscvtCanon px (fD w) (fA w) (fG w))
  | _ => .error 4

/-- The function codes of CONS (R55, R56). -/
def decodeCons (px : Option Pfx) (w : Word) : Except Nat Instr :=
  match (fB w).toNat with
  | 0 => if (fD w).extractLsb' 3 4 != 0 || (fA w).extractLsb' 4 3 != 0 then .error 3 else .ok (.consNone px ((fD w).extractLsb' 0 3) ((fA w).extractLsb' 0 4) (fG w))
  | 1 => if (fD w).extractLsb' 3 4 != 0 || (fA w).extractLsb' 4 3 != 0 then .error 3 else .ok (.consEvery px ((fD w).extractLsb' 0 3) ((fA w).extractLsb' 0 4) (fG w))
  | 2 => if (fD w).extractLsb' 3 4 != 0 then .error 3 else .ok (.consSame px ((fD w).extractLsb' 0 3) (fA w) (fG w))
  | 3 => if (fA w).extractLsb' 4 3 != 0 then .error 3 else .ok (.consMask px (fD w) ((fA w).extractLsb' 0 4) (fG w))
  | 4 => .ok (.consPeers px (fD w) (fA w) (fG w))
  | 5 => if (fA w).extractLsb' 4 3 != 0 then .error 3 else .ok (.consCount px (fD w) ((fA w).extractLsb' 0 4) (fG w))
  | 6 => if (fA w).extractLsb' 4 3 != 0 then .error 3 else .ok (.consFirst px (fD w) ((fA w).extractLsb' 0 4) (fG w))
  | _ => .error 2

/-- The function codes of CCTL (R55, R56). -/
def decodeCctl (px : Option Pfx) (w : Word) : Except Nat Instr :=
  match (fB w).toNat with
  | 0 => if fD w != 0 then .error 3 else .ok (.cctlInv px (fA w) (fG w))
  | 1 => if fD w != 0 || fA w != 0 then .error 3 else .ok (.cctlInvall px (fG w))
  | 2 => if fD w != 0 then .error 3 else .ok (.cctlDemote px (fA w) (fG w))
  | 3 => if fD w != 0 then .error 3 else .ok (.cctlEvict px (fA w) (fG w))
  | _ => .error 2

/-- The function codes of LEASE (R55, R56). -/
def decodeLease (px : Option Pfx) (w : Word) : Except Nat Instr :=
  match (fB w).toNat with
  | 0 => .ok (.leaseSpill px (fD w) (fA w) (fG w))
  | 1 => .ok (.leaseFill px (fD w) (fA w) (fG w))
  | 2 => .ok (.leaseDrop px (fD w) (fA w) (fG w))
  | _ => .error 2

/-- The function codes of SYS (R55, R56). -/
def decodeSys (px : Option Pfx) (w : Word) : Except Nat Instr :=
  match (fB w).toNat with
  | 0 => if fD w != 0 || fA w != 0 then .error 3 else .ok (.sysNop px (fG w))
  | 1 => if fD w != 0 then .error 3 else .ok (.sysTrap px (fA w) (fG w))
  | 2 => if fD w != 0 || fA w != 0 then .error 3 else .ok (.sysTret px (fG w))
  | 3 => if fD w != 0 || fA w != 0 then .error 3 else .ok (.sysBkpt px (fG w))
  | 4 => if fD w != 0 || fA w != 0 then .error 3 else .ok (.sysYield px (fG w))
  | 5 => if fD w != 0 || fA w != 0 then .error 3 else .ok (.sysConv px (fG w))
  | 6 => if (fD w).extractLsb' 3 4 != 0 || fA w != 0 then .error 3 else .ok (.sysElect px ((fD w).extractLsb' 0 3) (fG w))
  | 7 => if fD w != 0 then .error 3 else .ok (.sysPost px (fA w) (fG w))
  | 8 => if (fD w).extractLsb' 3 4 != 0 then .error 3 else .ok (.sysTlbinv px ((fD w).extractLsb' 0 3) (fA w) (fG w))
  | 9 => if fA w != 0 then .error 3 else .ok (.sysRdtime px (fD w) (fG w))
  | 10 => if fD w != 0 then .error 3 else .ok (.sysSleep px (fA w) (fG w))
  | 11 => if fD w != 0 then .error 3 else .ok (.sysCabort px (fA w) (fG w))
  | 12 => .ok (.sysMstat px (fD w) (fA w) (fG w))
  | _ => .error 2

/-- The function codes of EXT (R55, R56). -/
def decodeExt (px : Option Pfx) (w : Word) : Except Nat Instr :=
  match (fB w).toNat with
  | 0 => .ok (.extIabs px (fD w) (fA w) (fG w))
  | 1 => .ok (.extIneg px (fD w) (fA w) (fG w))
  | 2 => .ok (.extNot px (fD w) (fA w) (fG w))
  | 3 => .ok (.extSext8 px (fD w) (fA w) (fG w))
  | 4 => .ok (.extSext16 px (fD w) (fA w) (fG w))
  | 5 => .ok (.extZext8 px (fD w) (fA w) (fG w))
  | 6 => .ok (.extZext16 px (fD w) (fA w) (fG w))
  | 7 => .ok (.extFfs px (fD w) (fA w) (fG w))
  | _ => .error 2

/-- The base word `w` by its major opcode (R49), with the prefix before it and the literal word after it. The
error is the reason of R60. -/
def decodeBase (px : Option Pfx) (w lit : Word) : Except Nat Instr :=
  match (fM w).toNat with
  | 0 => .error 1
  | 1 => .ok (.iadd px (fD w) (fA w) (fB w) (fG w))
  | 2 => .ok (.isub px (fD w) (fA w) (fB w) (fG w))
  | 3 => .ok (.iaddi px (fD w) (fA w) (fB w) (fG w))
  | 4 => .ok (.imul px (fD w) (fA w) (fB w) (fG w))
  | 5 => .ok (.imulh px (fD w) (fA w) (fB w) (fG w))
  | 6 => .ok (.imulhn px (fD w) (fA w) (fB w) (fG w))
  | 7 => .ok (.imad px (fD w) (fA w) (fB w) (fG w))
  | 8 => .ok (.iadd64 px (fD w) (fA w) (fB w) (fG w))
  | 9 => .ok (.isub64 px (fD w) (fA w) (fB w) (fG w))
  | 10 => .ok (.imulw px (fD w) (fA w) (fB w) (fG w))
  | 11 => .ok (.nmulw px (fD w) (fA w) (fB w) (fG w))
  | 12 => .ok (.imin px (fD w) (fA w) (fB w) (fG w))
  | 13 => .ok (.imax px (fD w) (fA w) (fB w) (fG w))
  | 14 => .ok (.nmin px (fD w) (fA w) (fB w) (fG w))
  | 15 => .ok (.nmax px (fD w) (fA w) (fB w) (fG w))
  | 16 => .ok (.imuli px (fD w) (fA w) (fB w) (fG w))
  | 17 => .ok (.iadds px (fD w) (fA w) (fB w) (fG w))
  | 18 => .ok (.nadds px (fD w) (fA w) (fB w) (fG w))
  | 19 => .ok (.isubs px (fD w) (fA w) (fB w) (fG w))
  | 20 => .ok (.and px (fD w) (fA w) (fB w) (fG w))
  | 21 => .ok (.or px (fD w) (fA w) (fB w) (fG w))
  | 22 => .ok (.xor px (fD w) (fA w) (fB w) (fG w))
  | 23 => .ok (.andn px (fD w) (fA w) (fB w) (fG w))
  | 24 => .ok (.andi px (fD w) (fA w) (fB w) (fG w))
  | 25 => .ok (.ori px (fD w) (fA w) (fB w) (fG w))
  | 26 => .ok (.xori px (fD w) (fA w) (fB w) (fG w))
  | 27 => .ok (.shl px (fD w) (fA w) (fB w) (fG w))
  | 28 => .ok (.shr px (fD w) (fA w) (fB w) (fG w))
  | 29 => .ok (.sar px (fD w) (fA w) (fB w) (fG w))
  | 30 => .ok (.shli px (fD w) (fA w) (fB w) (fG w))
  | 31 => .ok (.shri px (fD w) (fA w) (fB w) (fG w))
  | 32 => .ok (.sari px (fD w) (fA w) (fB w) (fG w))
  | 33 => .ok (.fshl px (fD w) (fA w) (fB w) (fG w))
  | 34 => .ok (.fshr px (fD w) (fA w) (fB w) (fG w))
  | 35 => .ok (.bfxs px (fD w) (fA w) (fB w) (fG w))
  | 36 => .ok (.bfxn px (fD w) (fA w) (fB w) (fG w))
  | 37 => .ok (.bfi px (fD w) (fA w) (fB w) (fG w))
  | 38 => if fB w != 0 then .error 3 else .ok (.popc px (fD w) (fA w) (fG w))
  | 39 => if fB w != 0 then .error 3 else .ok (.clz px (fD w) (fA w) (fG w))
  | 40 => if fB w != 0 then .error 3 else .ok (.brev px (fD w) (fA w) (fG w))
  | 41 => .ok (.bmix px (fD w) (fA w) (fB w) (fG w))
  | 42 => .ok (.fadd px (fD w) (fA w) (fB w) (fG w))
  | 43 => .ok (.fsub px (fD w) (fA w) (fB w) (fG w))
  | 44 => .ok (.fmul px (fD w) (fA w) (fB w) (fG w))
  | 45 => .ok (.ffma px (fD w) (fA w) (fB w) (fG w))
  | 46 => .ok (.fmin px (fD w) (fA w) (fB w) (fG w))
  | 47 => .ok (.fmax px (fD w) (fA w) (fB w) (fG w))
  | 48 => decodeFsf px w
  | 49 => .ok (.badd2 px (fD w) (fA w) (fB w) (fG w))
  | 50 => .ok (.bmul2 px (fD w) (fA w) (fB w) (fG w))
  | 51 => .ok (.bfma2 px (fD w) (fA w) (fB w) (fG w))
  | 52 => .ok (.hadd2 px (fD w) (fA w) (fB w) (fG w))
  | 53 => .ok (.hmul2 px (fD w) (fA w) (fB w) (fG w))
  | 54 => .ok (.hfma2 px (fD w) (fA w) (fB w) (fG w))
  | 55 => .ok (.dot4i px (fD w) (fA w) (fB w) (fG w))
  | 56 => .ok (.dot2b px (fD w) (fA w) (fB w) (fG w))
  | 57 => .ok (.dot4e4 px (fD w) (fA w) (fB w) (fG w))
  | 58 => .ok (.dot4e5 px (fD w) (fA w) (fB w) (fG w))
  | 59 => .ok (.cvt px (fD w) (fA w) ((fB w).extractLsb' 6 1) ((fB w).extractLsb' 4 2) ((fB w).extractLsb' 0 4) (fG w))
  | 60 => .ok (.cvtmx px (fD w) (fA w) ((fB w).extractLsb' 2 5) ((fB w).extractLsb' 0 2) (fG w))
  | 61 => .ok (.qmx px (fD w) (fA w) ((fB w).extractLsb' 2 5) ((fB w).extractLsb' 0 2) (fG w))
  | 62 => decodeMxscl px w
  | 63 => .ok (.dsmul px (fD w) (fA w) (fB w) (fG w))
  | 64 => if (fB w).extractLsb' 2 2 != 0 then .error 3 else decodeDscvt px w
  | 65 => .ok (.dsdot4 px (fD w) (fA w) (fB w) (fG w))
  | 66 => if (fD w).extractLsb' 3 1 != 0 then .error 3 else .ok (.icmp px ((fD w).extractLsb' 4 3) ((fD w).extractLsb' 0 3) (fA w) (fB w) (fG w))
  | 67 => if (fD w).extractLsb' 3 1 != 0 then .error 3 else .ok (.ncmp px ((fD w).extractLsb' 4 3) ((fD w).extractLsb' 0 3) (fA w) (fB w) (fG w))
  | 68 => if (fD w).extractLsb' 3 1 != 0 then .error 3 else .ok (.fcmp px ((fD w).extractLsb' 4 3) ((fD w).extractLsb' 0 3) (fA w) (fB w) (fG w))
  | 69 => if (fD w).extractLsb' 3 1 != 0 then .error 3 else .ok (.icmpi px ((fD w).extractLsb' 4 3) ((fD w).extractLsb' 0 3) (fA w) (fB w) (fG w))
  | 70 => if (fD w).extractLsb' 3 4 != 0 || (fA w).extractLsb' 4 3 != 0 || (fB w).extractLsb' 4 3 != 0 then .error 3 else .ok (.pand px ((fD w).extractLsb' 0 3) ((fA w).extractLsb' 0 4) ((fB w).extractLsb' 0 4) (fG w))
  | 71 => if (fD w).extractLsb' 3 4 != 0 || (fA w).extractLsb' 4 3 != 0 || (fB w).extractLsb' 4 3 != 0 then .error 3 else .ok (.por px ((fD w).extractLsb' 0 3) ((fA w).extractLsb' 0 4) ((fB w).extractLsb' 0 4) (fG w))
  | 72 => if (fD w).extractLsb' 3 4 != 0 || (fA w).extractLsb' 4 3 != 0 || (fB w).extractLsb' 4 3 != 0 then .error 3 else .ok (.pxor px ((fD w).extractLsb' 0 3) ((fA w).extractLsb' 0 4) ((fB w).extractLsb' 0 4) (fG w))
  | 73 => .ok (.sel px (fD w) (fA w) (fB w) (fG w))
  | 74 => if fA w != 0 || fB w != 0 then .error 3 else .ok (.ptox px (fD w) (fG w))
  | 75 => if fD w != 0 || fB w != 0 then .error 3 else .ok (.xtop px (fA w) (fG w))
  | 76 => if fB w != 0 then .error 3 else .ok (.mov px (fD w) (fA w) (fG w))
  | 77 => .ok (.movi px (fD w) (fI14 w) (fG w))
  | 78 => if fA w != 0 || fB w != 0 then .error 3 else .ok (.ldi px (fD w) (fG w) lit)
  | 79 => .ok (.lxor px (fD w) (fA w) (fB w) (fG w))
  | 80 => .ok (.lget px (fD w) (fA w) (fB w) (fG w))
  | 81 => .ok (.lrot px (fD w) (fA w) (fB w) (fG w))
  | 82 => .ok (.lrots px (fD w) (fA w) ((fB w).extractLsb' 5 2) ((fB w).extractLsb' 0 5) (fG w))
  | 83 => decodeCons px w
  | 84 => if fA w != 0 then .error 3 else .ok (.rdsys px (fD w) (fB w) (fG w))
  | 85 => if fD w != 0 then .error 3 else .ok (.wrsys px (fA w) (fB w) (fG w))
  | 86 => if (fB w).extractLsb' 0 2 != 0 then .error 3 else .ok (.ld px (fD w) (fA w) ((fB w).extractLsb' 4 3) ((fB w).extractLsb' 2 2) (fG w))
  | 87 => if (fB w).extractLsb' 0 1 != 0 then .error 3 else .ok (.lda px (fD w) (fA w) ((fB w).extractLsb' 4 3) ((fB w).extractLsb' 1 3) (fG w))
  | 88 => if (fD w).extractLsb' 0 2 != 0 then .error 3 else .ok (.st px ((fD w).extractLsb' 4 3) ((fD w).extractLsb' 2 2) (fA w) (fB w) (fG w))
  | 89 => if (fD w).extractLsb' 0 1 != 0 then .error 3 else .ok (.stl px ((fD w).extractLsb' 4 3) ((fD w).extractLsb' 1 3) (fA w) (fB w) (fG w))
  | 90 => if (fB w).extractLsb' 0 2 != 0 then .error 3 else if (fB w).extractLsb' 4 3 != 4 then .error 4 else .ok (.ldk px (fD w) (fA w) ((fB w).extractLsb' 2 2) (fG w))
  | 91 => .ok (.rcn px (fD w) (fA w) ((fB w).extractLsb' 3 4) ((fB w).extractLsb' 0 3) (fG w))
  | 92 => .ok (.rcnx px (fD w) (fA w) ((fB w).extractLsb' 3 4) ((fB w).extractLsb' 0 3) (fG w))
  | 93 => decodeCctl px w
  | 94 => if fD w != 0 || (fB w).extractLsb' 0 2 != 0 || (fB w).extractLsb' 4 3 != 0 then .error 3 else .ok (.pref px (fA w) ((fB w).extractLsb' 2 2) (fG w))
  | 95 => if fD w != 0 || fA w != 0 || (fB w).extractLsb' 5 2 != 0 then .error 3 else .ok (.fence px ((fB w).extractLsb' 3 2) ((fB w).extractLsb' 0 3) (fG w))
  | 96 => .ok (.atom px (fD w) (fA w) ((fB w).extractLsb' 3 4) ((fB w).extractLsb' 0 3) (fG w))
  | 97 => .ok (.atomr px (fD w) (fA w) ((fB w).extractLsb' 3 4) ((fB w).extractLsb' 0 3) (fG w))
  | 98 => .ok (.red px (fD w) (fA w) ((fB w).extractLsb' 3 4) ((fB w).extractLsb' 0 3) (fG w))
  | 99 => .ok (.atom64 px (fD w) (fA w) ((fB w).extractLsb' 3 4) ((fB w).extractLsb' 0 3) (fG w))
  | 100 => if fD w != 0 then .error 3 else .ok (.dqpush px (fA w) (fB w) (fG w))
  | 101 => if fB w != 0 then .error 3 else .ok (.dqpop px (fD w) (fA w) (fG w))
  | 102 => if fB w != 0 then .error 3 else .ok (.dqsteal px (fD w) (fA w) (fG w))
  | 103 => if fD w != 0 then .error 3 else .ok (.binit px (fA w) (fB w) (fG w))
  | 104 => if fD w != 0 || (fB w).extractLsb' 3 3 != 0 then .error 3 else .ok (.arv px (fA w) ((fB w).extractLsb' 6 1) ((fB w).extractLsb' 0 3) (fG w))
  | 105 => if fD w != 0 then .error 3 else .ok (.bexp px (fA w) (fB w) (fG w))
  | 106 => if (fD w).extractLsb' 3 4 != 0 then .error 3 else .ok (.waitp px ((fD w).extractLsb' 0 3) (fA w) (fB w) (fG w))
  | 107 => if (fD w).extractLsb' 3 4 != 0 then .error 3 else .ok (.tryw px ((fD w).extractLsb' 0 3) (fA w) (fB w) (fG w))
  | 108 => .ok (.wait px ((fD w).extractLsb' 1 6) ((fI21 w).extractLsb' 10 5) ((fI21 w).extractLsb' 4 6) ((fB w).extractLsb' 0 4) (fG w))
  | 109 => if fD w != 0 then .error 3 else .ok (.copy px (fA w) (fB w) (fG w))
  | 110 => if fD w != 0 then .error 3 else .ok (.put px (fA w) (fB w) (fG w))
  | 111 => if fD w != 0 || fB w != 0 then .error 3 else .ok (.publ px (fA w) (fG w))
  | 112 => if fB w != 0 then .error 3 else .ok (.coll px (fD w) (fA w) (fG w))
  | 113 => if fD w != 0 || fB w != 0 then .error 3 else .ok (.mload px (fA w) (fG w))
  | 114 => if fD w != 0 || (fB w).extractLsb' 1 6 != 0 then .error 3 else if (fB w).extractLsb' 0 1 = 0 then .ok (.amodeStorage px (fA w) (fG w)) else .ok (.amodeCompute px (fA w) (fG w))
  | 115 => if fD w != 0 || fB w != 0 then .error 3 else .ok (.mmv px (fA w) (fG w))
  | 116 => if fD w != 0 || fB w != 0 then .error 3 else .ok (.mmg px (fA w) (fG w))
  | 117 => if fD w != 0 || fB w != 0 then .error 3 else .ok (.acc px (fA w) (fG w))
  | 118 => .ok (.bra (fI21 w) (fG w))
  | 119 => if fD w != 0 || fB w != 0 then .error 3 else .ok (.brx (fA w) (fG w))
  | 120 => .ok (.call (fI21 w) (fG w))
  | 121 => if fD w != 0 || fA w != 0 || fB w != 0 then .error 3 else .ok (.ret (fG w))
  | 122 => if fD w != 0 || fA w != 0 || fB w != 0 then .error 3 else .ok (.exit (fG w))
  | 123 => if (fD w).extractLsb' 1 6 != 0 then .error 3 else if (fD w).extractLsb' 0 1 = 0 then .ok (.win px (fI14 w) (fG w)) else .ok (.winAbs px (fI14 w) (fG w))
  | 124 => decodeLease px w
  | 125 => decodeSys px w
  | 126 => decodeExt px w
  | _ => .error 6

/-- The base word of an instruction (R33, R50); rows without an encoding have none and answer 0. -/
def encodeBase (i : Instr) : Word :=
  match i with
  | .iadd _ d a b g => reg3 1 d a b g
  | .isub _ d a b g => reg3 2 d a b g
  | .iaddi _ d a i g => reg3 3 d a i g
  | .imul _ d a b g => reg3 4 d a b g
  | .imulh _ d a b g => reg3 5 d a b g
  | .imulhn _ d a b g => reg3 6 d a b g
  | .imad _ d a b g => reg3 7 d a b g
  | .iadd64 _ d a b g => reg3 8 d a b g
  | .isub64 _ d a b g => reg3 9 d a b g
  | .imulw _ d a b g => reg3 10 d a b g
  | .nmulw _ d a b g => reg3 11 d a b g
  | .imin _ d a b g => reg3 12 d a b g
  | .imax _ d a b g => reg3 13 d a b g
  | .nmin _ d a b g => reg3 14 d a b g
  | .nmax _ d a b g => reg3 15 d a b g
  | .imuli _ d a i g => reg3 16 d a i g
  | .iadds _ d a b g => reg3 17 d a b g
  | .nadds _ d a b g => reg3 18 d a b g
  | .isubs _ d a b g => reg3 19 d a b g
  | .and _ d a b g => reg3 20 d a b g
  | .or _ d a b g => reg3 21 d a b g
  | .xor _ d a b g => reg3 22 d a b g
  | .andn _ d a b g => reg3 23 d a b g
  | .andi _ d a i g => reg3 24 d a i g
  | .ori _ d a i g => reg3 25 d a i g
  | .xori _ d a i g => reg3 26 d a i g
  | .shl _ d a b g => reg3 27 d a b g
  | .shr _ d a b g => reg3 28 d a b g
  | .sar _ d a b g => reg3 29 d a b g
  | .shli _ d a k g => reg3 30 d a k g
  | .shri _ d a k g => reg3 31 d a k g
  | .sari _ d a k g => reg3 32 d a k g
  | .fshl _ d a b g => reg3 33 d a b g
  | .fshr _ d a b g => reg3 34 d a b g
  | .bfxs _ d a b g => reg3 35 d a b g
  | .bfxn _ d a b g => reg3 36 d a b g
  | .bfi _ d a b g => reg3 37 d a b g
  | .popc _ d a g => reg3 38 d a 0 g
  | .clz _ d a g => reg3 39 d a 0 g
  | .brev _ d a g => reg3 40 d a 0 g
  | .bmix _ d a b g => reg3 41 d a b g
  | .fadd _ d a b g => reg3 42 d a b g
  | .fsub _ d a b g => reg3 43 d a b g
  | .fmul _ d a b g => reg3 44 d a b g
  | .ffma _ d a b g => reg3 45 d a b g
  | .fmin _ d a b g => reg3 46 d a b g
  | .fmax _ d a b g => reg3 47 d a b g
  | .fsfRcp _ d a g => reg3 48 d a 0 g
  | .fsfRsq _ d a g => reg3 48 d a 1 g
  | .fsfSqrt _ d a g => reg3 48 d a 2 g
  | .fsfExp2 _ d a g => reg3 48 d a 3 g
  | .fsfLog2 _ d a g => reg3 48 d a 4 g
  | .fsfSinpi _ d a g => reg3 48 d a 5 g
  | .fsfCospi _ d a g => reg3 48 d a 6 g
  | .fsfTanh _ d a g => reg3 48 d a 7 g
  | .fsfAbs _ d a g => reg3 48 d a 8 g
  | .fsfNeg _ d a g => reg3 48 d a 9 g
  | .fsfFract _ d a g => reg3 48 d a 10 g
  | .fsfFloor _ d a g => reg3 48 d a 11 g
  | .fsfCeil _ d a g => reg3 48 d a 12 g
  | .fsfTrunc _ d a g => reg3 48 d a 13 g
  | .fsfRint _ d a g => reg3 48 d a 14 g
  | .badd2 _ d a b g => reg3 49 d a b g
  | .bmul2 _ d a b g => reg3 50 d a b g
  | .bfma2 _ d a b g => reg3 51 d a b g
  | .hadd2 _ d a b g => reg3 52 d a b g
  | .hmul2 _ d a b g => reg3 53 d a b g
  | .hfma2 _ d a b g => reg3 54 d a b g
  | .dot4i _ d a b g => reg3 55 d a b g
  | .dot2b _ d a b g => reg3 56 d a b g
  | .dot4e4 _ d a b g => reg3 57 d a b g
  | .dot4e5 _ d a b g => reg3 58 d a b g
  | .cvt _ d a v s f g => reg3 59 d a (v ++ s ++ f) g
  | .cvtmx _ d a s e g => reg3 60 d a (s ++ e) g
  | .qmx _ d a s e g => reg3 61 d a (s ++ e) g
  | .mxsclE4m3 _ d a g => reg3 62 d a 0 g
  | .mxsclE5m2 _ d a g => reg3 62 d a 1 g
  | .mxsclE2m3 _ d a g => reg3 62 d a 2 g
  | .mxsclE3m2 _ d a g => reg3 62 d a 3 g
  | .mxsclE2m1 _ d a g => reg3 62 d a 4 g
  | .mxsclMxint8 _ d a g => reg3 62 d a 5 g
  | .dsmul _ d a b g => reg3 63 d a b g
  | .dscvtFromf32 _ d a i g => reg3 64 d a (0#5 ++ i) g
  | .dscvtTof32 _ d a i g => reg3 64 d a (4#5 ++ i) g
  | .dscvtFromi32 _ d a i g => reg3 64 d a (8#5 ++ i) g
  | .dscvtToi32 _ d a i g => reg3 64 d a (12#5 ++ i) g
  | .dscvtCanon _ d a g => reg3 64 d a 64 g
  | .dsdot4 _ d a b g => reg3 65 d a b g
  | .icmp _ c p a b g => reg3 66 (c ++ 0#1 ++ p) a b g
  | .ncmp _ c p a b g => reg3 67 (c ++ 0#1 ++ p) a b g
  | .fcmp _ c p a b g => reg3 68 (c ++ 0#1 ++ p) a b g
  | .icmpi _ c p a i g => reg3 69 (c ++ 0#1 ++ p) a i g
  | .pand _ p i j g => reg3 70 (0#4 ++ p) (0#3 ++ i) (0#3 ++ j) g
  | .por _ p i j g => reg3 71 (0#4 ++ p) (0#3 ++ i) (0#3 ++ j) g
  | .pxor _ p i j g => reg3 72 (0#4 ++ p) (0#3 ++ i) (0#3 ++ j) g
  | .sel _ d a b g => reg3 73 d a b g
  | .ptox _ d g => reg3 74 d 0 0 g
  | .xtop _ a g => reg3 75 0 a 0 g
  | .mov _ d a g => reg3 76 d a 0 g
  | .movi _ d i g => ri14 77 d i g
  | .ldi _ d g _ => reg3 78 d 0 0 g
  | .lxor _ d a k g => reg3 79 d a k g
  | .lget _ d a b g => reg3 80 d a b g
  | .lrot _ d a k g => reg3 81 d a k g
  | .lrots _ d a w k g => reg3 82 d a (w ++ k) g
  | .consNone _ p q g => reg3 83 (0#4 ++ p) (0#3 ++ q) 0 g
  | .consEvery _ p q g => reg3 83 (0#4 ++ p) (0#3 ++ q) 1 g
  | .consSame _ p a g => reg3 83 (0#4 ++ p) a 2 g
  | .consMask _ d q g => reg3 83 d (0#3 ++ q) 3 g
  | .consPeers _ d a g => reg3 83 d a 4 g
  | .consCount _ d q g => reg3 83 d (0#3 ++ q) 5 g
  | .consFirst _ d q g => reg3 83 d (0#3 ++ q) 6 g
  | .rdsys _ d n g => reg3 84 d 0 n g
  | .wrsys _ a n g => reg3 85 0 a n g
  | .ld _ d a z h g => reg3 86 d a (z ++ h ++ 0#2) g
  | .lda _ d a z s g => reg3 87 d a (z ++ s ++ 0#1) g
  | .st _ z h a b g => reg3 88 (z ++ h ++ 0#2) a b g
  | .stl _ z s a b g => reg3 89 (z ++ s ++ 0#1) a b g
  | .ldk _ d a h g => reg3 90 d a (4#3 ++ h ++ 0#2) g
  | .rcn _ d a m s g => reg3 91 d a (m ++ s) g
  | .rcnx _ d a m s g => reg3 92 d a (m ++ s) g
  | .cctlInv _ a g => reg3 93 0 a 0 g
  | .cctlInvall _ g => reg3 93 0 0 1 g
  | .cctlDemote _ a g => reg3 93 0 a 2 g
  | .cctlEvict _ a g => reg3 93 0 a 3 g
  | .pref _ a h g => reg3 94 0 a (0#3 ++ h ++ 0#2) g
  | .fence _ o s g => reg3 95 0 0 (0#2 ++ o ++ s) g
  | .atom _ d a o s g => reg3 96 d a (o ++ s) g
  | .atomr _ d a o s g => reg3 97 d a (o ++ s) g
  | .red _ d a o s g => reg3 98 d a (o ++ s) g
  | .atom64 _ d a o s g => reg3 99 d a (o ++ s) g
  | .dqpush _ a b g => reg3 100 0 a b g
  | .dqpop _ d a g => reg3 101 d a 0 g
  | .dqsteal _ d a g => reg3 102 d a 0 g
  | .binit _ a b g => reg3 103 0 a b g
  | .arv _ a r s g => reg3 104 0 a (r ++ 0#3 ++ s) g
  | .bexp _ a b g => reg3 105 0 a b g
  | .waitp _ p a b g => reg3 106 (0#4 ++ p) a b g
  | .tryw _ p a b g => reg3 107 (0#4 ++ p) a b g
  | .wait _ l s c t g => b21 108 (l ++ s ++ c ++ t) g
  | .copy _ a b g => reg3 109 0 a b g
  | .put _ a b g => reg3 110 0 a b g
  | .publ _ a g => reg3 111 0 a 0 g
  | .coll _ d a g => reg3 112 d a 0 g
  | .mload _ a g => reg3 113 0 a 0 g
  | .amodeStorage _ a g => reg3 114 0 a 0 g
  | .amodeCompute _ a g => reg3 114 0 a 1 g
  | .mmv _ a g => reg3 115 0 a 0 g
  | .mmg _ a g => reg3 116 0 a 0 g
  | .acc _ a g => reg3 117 0 a 0 g
  | .bra i g => b21 118 i g
  | .brx a g => reg3 119 0 a 0 g
  | .call i g => b21 120 i g
  | .ret g => reg3 121 0 0 0 g
  | .exit g => reg3 122 0 0 0 g
  | .win _ i g => ri14 123 0 i g
  | .winAbs _ i g => ri14 123 1 i g
  | .leaseSpill _ d a g => reg3 124 d a 0 g
  | .leaseFill _ d a g => reg3 124 d a 1 g
  | .leaseDrop _ d a g => reg3 124 d a 2 g
  | .sysNop _ g => reg3 125 0 0 0 g
  | .sysTrap _ a g => reg3 125 0 a 1 g
  | .sysTret _ g => reg3 125 0 0 2 g
  | .sysBkpt _ g => reg3 125 0 0 3 g
  | .sysYield _ g => reg3 125 0 0 4 g
  | .sysConv _ g => reg3 125 0 0 5 g
  | .sysElect _ p g => reg3 125 (0#4 ++ p) 0 6 g
  | .sysPost _ a g => reg3 125 0 a 7 g
  | .sysTlbinv _ s a g => reg3 125 (0#4 ++ s) a 8 g
  | .sysRdtime _ d g => reg3 125 d 0 9 g
  | .sysSleep _ a g => reg3 125 0 a 10 g
  | .sysCabort _ a g => reg3 125 0 a 11 g
  | .sysMstat _ d a g => reg3 125 d a 12 g
  | .extIabs _ d a g => reg3 126 d a 0 g
  | .extIneg _ d a g => reg3 126 d a 1 g
  | .extNot _ d a g => reg3 126 d a 2 g
  | .extSext8 _ d a g => reg3 126 d a 3 g
  | .extSext16 _ d a g => reg3 126 d a 4 g
  | .extZext8 _ d a g => reg3 126 d a 5 g
  | .extZext16 _ d a g => reg3 126 d a 6 g
  | .extFfs _ d a g => reg3 126 d a 7 g
  | .deferredTrapDelivery .. => 0
  | .pathPromotion .. => 0
  | .activeSetResidencyExpiry .. => 0
  | .activeSetFill .. => 0
  | .loadDataReturn .. => 0
  | .symbolResolve .. => 0
  | .strikeClearance .. => 0
  | .storePerformed .. => 0
  | .atomicStep .. => 0
  | .reconcileStep .. => 0
  | .dequeStep .. => 0
  | .barrierUpdate .. => 0
  | .waiterResume .. => 0
  | .trywDeadline .. => 0
  | .sleepExpiry .. => 0
  | .idleClockGate .. => 0
  | .idlePowerGate .. => 0
  | .coreWake .. => 0
  | .deadlinePreWake .. => 0
  | .longWaitThreshold .. => 0
  | .hangSuspectThreshold .. => 0
  | .copyStart .. => 0
  | .copyPieceLand .. => 0
  | .copyRetire .. => 0
  | .putPiecePerformed .. => 0
  | .collectiveComplete .. => 0
  | .collPacketReceive .. => 0
  | .abortTokenReceive .. => 0
  | .postBufferDrain .. => 0
  | .multicastEnqueue .. => 0
  | .seqBlockRead .. => 0
  | .seqStart .. => 0
  | .amodeSwitch .. => 0
  | .amodeStorageEntry .. => 0
  | .columnSumDone .. => 0
  | .mloadSlotDone .. => 0
  | .mmvFetchDone .. => 0
  | .mmvHighPlanesDone .. => 0
  | .mmvLowPlanesDone .. => 0
  | .mmvSumDone .. => 0
  | .rowCommit .. => 0
  | .accRowDone .. => 0
  | .seqOpRetire .. => 0
  | .seqStopRequest .. => 0
  | .leasePlaced .. => 0
  | .leaseFillData .. => 0
  | .leaseRevoke .. => 0
  | .translationWalkDone .. => 0
  | .faultServiceCardPost .. => 0
  | .faultResStore .. => 0
  | .faultRetryWalkDone .. => 0
  | .tlbinvApply .. => 0
  | .tlbinvAck .. => 0
  | .gets .. => 0
  | .evict .. => 0
  | .evack .. => 0
  | .data .. => 0
  | .wr .. => 0
  | .inv .. => 0
  | .invack .. => 0
  | .own .. => 0
  | .fwdGets .. => 0
  | .fwdWr .. => 0
  | .fwdOwn .. => 0
  | .wb .. => 0
  | .wback .. => 0
  | .nack .. => 0
  | .exportRevoke .. => 0
  | .replicaWrite .. => 0
  | .replicaUpdate .. => 0
  | .hostAtomicCasResponse .. => 0
  | .hostSnoop .. => 0
  | .hostMemRequest .. => 0
  | .qdbDoorbell .. => 0
  | .retrycntClear .. => 0
  | .registerWrite .. => 0
  | .setbase .. => 0
  | .refresh .. => 0
  | .qstatus .. => 0
  | .qresume .. => 0
  | .import .. => 0
  | .unimport .. => 0
  | .unimportComplete .. => 0
  | .hibernate .. => 0
  | .quiescePreemptDone .. => 0
  | .quiesceCollectiveTimeout .. => 0
  | .quiesceOutwardDone .. => 0
  | .quiesceRecallDone .. => 0
  | .quiesceFreeze .. => 0
  | .hibernateImageDone .. => 0
  | .wake .. => 0
  | .dependencePoll .. => 0
  | .cardHeadCheck .. => 0
  | .cardStart .. => 0
  | .gangPlacement .. => 0
  | .priorityAgeing .. => 0
  | .swapOutDecision .. => 0
  | .clusterReallocation .. => 0
  | .crewEnd .. => 0
  | .swapOutStop .. => 0
  | .swapOutDrainDone .. => 0
  | .swapOutCloseDone .. => 0
  | .swapOutImageWritten .. => 0
  | .swapOutFree .. => 0
  | .reedReport .. => 0
  | .rollbackRestoreDone .. => 0
  | .recoverySpanEnd .. => 0
  | .relaunchCatchupEnd .. => 0
  | .patrolScrub .. => 0
  | .converterCalibration .. => 0
  | .calibrationPause .. => 0
  | .flitReceive .. => 0
  | .nakReceive .. => 0
  | .linkRetrainDone .. => 0
  | .linkBringup .. => 0
  | .linkKeyUpdate .. => 0
  | .powerOn .. => 0
  | .settReset .. => 0
  | .getVersion .. => 0
  | .getCapabilities .. => 0
  | .negotiateAlgorithms .. => 0
  | .getDigests .. => 0
  | .getCertificate .. => 0
  | .challenge .. => 0
  | .getMeasurements .. => 0
  | .keyExchange .. => 0
  | .finish .. => 0
  | .keyUpdate .. => 0
  | .endSession .. => 0
  | .keyLoad .. => 0
  | .keyClear .. => 0
  | .filterEntryWrite .. => 0
  | .dvsecRead .. => 0
  | .railOvercurrent .. => 0
  | .clockRecover .. => 0
  | .thermalTrip .. => 0
  | .supplyUndervoltage .. => 0
  | .illegalInstruction .. => 0
  | .unknownOp .. => 0
  | .swapInRestoreDone .. => 0
  | .hostLinkDown .. => 0

/-- Why bytes are no instruction: too few of them, or the illegal encoding whose TRAPINFO is given (R60). -/
inductive DecodeError where
  | short
  | illegal (info : Nat)
deriving DecidableEq, Repr

/-- Reason 0x03 for the three low bits of a prefix word (R37). -/
def prefixLow (pw : Word) : List Nat := if pw.extractLsb' 0 3 != 0 then [3] else []

/-- One instruction from its prefix word, if there is one, its base word and the word after that. Of a prefix behind a prefix only the first
word's own fields are judged with it (log 121). -/
def decodeWords (pw : Option Word) (w lit : Word) : Except DecodeError Instr :=
  match pw with
  | none =>
    match decodeBase none w lit with
    | .error r => .error (.illegal r)
    | .ok i =>
      match illegalOf i with
      | none => .ok i
      | some k => .error (.illegal k)
  | some p =>
    let q := pfxOf p
    let own := prefixLow p ++ b4 (12 < q.mask.toNat) ++ b4 (5 < q.rnd.toNat)
    if fM w = 127 then .error (.illegal ((illegalInfo (6 :: own) []).getD 6))
    else
      match decodeBase (some q) w lit with
      | .error r => .error (.illegal ((illegalInfo own [r]).getD r))
      | .ok i =>
        let placed := if (info i).px.isSome then prefixReasons (info i) q else [6]
        match illegalInfo (own ++ placed) (baseReasons (info i)) with
        | none => .ok i
        | some k => .error (.illegal k)

/-- The first little-endian word of a byte list (R33). -/
def takeWord : List Byte → Option (Word × List Byte)
  | b0 :: b1 :: b2 :: b3 :: r => some (b3 ++ b2 ++ b1 ++ b0, r)
  | _ => none

/-- Bytes of a word, lowest address first. -/
def wordBytes (w : Word) : List Byte :=
  [w.extractLsb' 0 8, w.extractLsb' 8 8, w.extractLsb' 16 8, w.extractLsb' 24 8]

/-- The instruction from its base word on: LDI takes the word after it, whatever that holds (R41). -/
def decodeFrom (pw : Option Word) (w : Word) (rest : List Byte) : Except DecodeError (Instr × List Byte) :=
  if fM w = 78 then
    match takeWord rest with
    | none => .error .short
    | some (lit, rest') =>
      match decodeWords pw w lit with
      | .ok i => .ok (i, rest')
      | .error e => .error e
  else
    match decodeWords pw w 0 with
    | .ok i => .ok (i, rest)
    | .error e => .error e

/-- The instruction at the head of a byte list and the bytes after it. -/
def decode (bs : List Byte) : Except DecodeError (Instr × List Byte) :=
  match takeWord bs with
  | none => .error .short
  | some (w, rest) =>
    if fM w = 127 then
      match takeWord rest with
      | none => .error .short
      | some (b, rest') => decodeFrom (some w) b rest'
    else decodeFrom none w rest

/-- The words of an instruction: the prefix, the base word, LDI's literal. -/
def encode (i : Instr) : List Word :=
  (match (info i).px with | none => [] | some p => [encodePfx p]) ++ [encodeBase i] ++
  (match i with | .ldi _ _ _ lit => [lit] | _ => [])

/-- The instruction's bytes as memory holds them. -/
def encodeBytes (i : Instr) : List Byte := (encode i).flatMap wordBytes

/-- The `n` low bytes of a number, lowest first. -/
def lowBytes : Nat → Nat → List Byte
  | 0, _ => []
  | n + 1, v => BitVec.ofNat 8 v :: lowBytes n (v / 256)

/-- The instruction that the decoder reads from an instruction whose bits are `w`, bit 0 the least significant bit
of the first word; the bits from `nbits` up to the longest instruction (three words) are zero. -/
def decodeTableWord (nbits w : Nat) : Option Instr :=
  match decode (lowBytes 12 (w % 2 ^ nbits)) with
  | .ok (i, _) => some i
  | .error _ => none

end Sys2Proof
end

