-- ==== Sys2Proof/Machine/Memory.lean ====
section
/-! DEFINITION. Memory at its places: HBM under its keys (R453), host memory, the near window with its wrap, gap and
zero (R240 to R244), registers, scratchpad and tile slots as bytes. -/

namespace Sys2Proof.Machine

/-! ## HBM and host memory -/

/-- The key in a slot of a sett; none where the slot is empty (R453). -/
def State.keyOf (s : State) (sett slot : Nat) : Option Nat := Tab.get none (s.sett sett).keys slot

/-- The 64-byte sectors of a range. -/
def sectorsOf (a n : Nat) : List Nat := (List.range ((a + n + 63) / 64 - a / 64)).map (a / 64 + ·)

/-- The context area, which the home slices keep from every agent but the host-queue engine and HIBERNATE (R382). -/
def contextArea (pa : Nat) : Bool := decide (0x1C00000000 ≤ pa % 2 ^ 37)

/-- The context area and the report ring below it, which they keep from every agent but the host (R424): a read returns zero, a write is
dropped. -/
def inContext (pa : Nat) : Bool :=
  contextArea pa || (decide (0x1BFFF00000 ≤ pa % 2 ^ 37) && decide (pa % 2 ^ 37 < 0x1BFFF40000))

/-- Read n bytes of a sett's HBM under a key slot. A sector written under another key decrypts to free bytes (R453,
log 8). -/
def State.hbmReadKey (s : State) (sett pa n slot : Nat) : Nat × State :=
  if inContext pa then (0, s) else
  let a := hbmAddr sett pa
  let k := match s.keyOf sett slot with | none => 0 | some k => k + 1
  if (sectorsOf a n).all (fun x => let e := Tab.get 0 s.sealed x
                                   e = 0 || e = k) then (Memory.readN s.hbm a n, s)
  else
    let (d, s) := s.draw
    ((List.range n).foldr (fun b v => (Config.decrypted d b).toNat + 256 * v) 0, s)

/-- A word that a running launch overwrites keeps its old value for the fetches of R61. -/
def noteCode (s : State) (launch a n : Nat) : State :=
  (List.range ((a + n + 3) / 4 - a / 4)).foldl (fun s w =>
    match Tab.get none s.codeOld (a / 4 + w) with
    | some _ => s
    | none =>
      let old := BitVec.ofNat 32 (Memory.readN s.hbm (4 * (a / 4 + w)) 4)
      { s with codeOld := Tab.set none s.codeOld (a / 4 + w) (some (launch, old)) }) s

/-- An address lies in the fault buffer; a base of 0 is none (R342, log 2). -/
def Sett.inFaultBuffer (t : Sett) (a : Nat) : Bool :=
  t.base 1 != 0 && decide (t.base 1 ≤ a) && decide (a < t.base 1 + 64 * 4096)

/-- A queue that a store has disabled is no longer admitted: its next enabling is checked anew (R310). -/
def State.noteQueues (s : State) (sett pa n : Nat) : State :=
  let t := s.sett sett
  let lo := t.base 3
  let off (p : Nat × QueueSt) : Bool := p.2.admitted && decide (pa ≤ lo + 64 * p.1) && decide (lo + 64 * p.1 < pa + n) &&
    s.hbmRead sett (lo + 64 * p.1) 1 % 2 = 0
  let gone := (t.queues.filter off).map Prod.fst
  if gone = [] then s
  else s.modSett sett (fun t => { t with
    genHold := if t.genHold.any gone.contains then none else t.genHold
    queues := gone.foldl (fun q i => Tab.modify QueueSt.init q i (fun x => { x with admitted := false, checked := false, dep := false })) t.queues })

/-- Write n bytes of a sett's HBM under a key slot; `launch` is the launch that writes, where one does. The entries of the fault
buffer change only as the fault unit changes them (R342). -/
def State.hbmWriteKey (s : State) (sett pa n slot v : Nat) (launch : Option Nat) : State :=
  if inContext pa || (s.sett sett).inFaultBuffer pa then s else
  let a := hbmAddr sett pa
  let k := match s.keyOf sett slot with | none => 0 | some k => k + 1
  let s := match launch with | none => s | some l => noteCode s l a n
  let whole := (sectorsOf a n).filter (fun x => decide (a ≤ 64 * x) && decide (64 * x + 64 ≤ a + n))
  let w (s : State) : State := { s with
    hbm := Memory.writeN s.hbm a n v
    sealed := (sectorsOf a n).foldl (fun t x => Tab.set 0 t x k) s.sealed
    poison := whole.foldl (fun t x => Tab.set false t x false) s.poison }
  (w s).noteQueues sett pa n

/-- The launch of a crew's gang. -/
def State.launchOf (s : State) (k : Nat) : Nat := (s.record (crewSett k) (crewRec k)).launch

/-- Read at a place outside the near window. -/
def State.memRead (s : State) (t : Target) (n : Nat) : Nat × State :=
  match t.place with
  | .hbm sett a => s.hbmReadKey sett a n t.key
  | .host a => (s.hostRead a n, s)
  | _ => (0, s)

/-- Write at a place outside the near window. -/
def State.memWrite (s : State) (t : Target) (n v : Nat) (launch : Option Nat) : State :=
  match t.place with
  | .hbm sett a => s.hbmWriteKey sett a n t.key v launch
  | .host a => s.hostWrite a n v
  | _ => s

/-- Mark the sectors of a range of a sett's HBM as poisoned, or take their marks away (R422). -/
def State.markPoison (s : State) (sett a n : Nat) (bad : Bool) : State :=
  { s with poison := (sectorsOf (hbmAddr sett a) n).foldl (fun p x => Tab.set false p x bad) s.poison }

/-! ## The near window (R240) -/

/-- First address of the near window. -/
def nwb : Nat := 0x00FFFF0000000000

def isNear (va : Nat) : Bool := va / 2 ^ 24 = nwb / 2 ^ 24

/-- Byte o of a block's scratchpad area: wrapped, or in the gap (R244). -/
def State.padPlace (s : State) (b o : Nat) : Place :=
  let x := s.block b
  let Z := padBytes x.scratch
  if !x.live || Z = 0 then .gap else if o % Z < x.scratch then .pad b (o % Z) else .gap

/-- Area of the near window, or 8 for an address outside it. -/
def nearArea (va : Nat) : Nat := if isNear va then va % 2 ^ 24 / 2 ^ 21 else 8

/-- Place of a byte of the near window as a crew sees it from a core (R240 to R244); none in the reserved area. -/
def State.nearPlace (s : State) (k core off : Nat) : Option Place :=
  let b := crewBlock k
  let x := s.block b
  let o := off % 2 ^ 21
  match off / 2 ^ 21 % 8 with
  | 0 => if o < x.crews * x.regs * 128 then
           some (.reg (crewKey b (o / (x.regs * 128))) (o % (x.regs * 128)))
         else some .gap
  | 1 => some (s.padPlace b o)
  | 2 => if o / 16384 < x.arrays then some (.tile b o) else some .gap
  | 3 => none
  | a =>
    let c := 4 * (core / 4) + (a - 4)
    if c = core then some (s.padPlace b o)
    else match s.gangBlockOn (crewSett k) (crewRec k) c with
      | some q => some (s.padPlace q o)
      | none => some .gap

/-- Core that serves an address of the near window for an access from `core`. -/
def nearCore (core off : Nat) : Nat := if off / 2 ^ 21 % 8 < 4 then core else 4 * (core / 4) + off / 2 ^ 21 % 4

/-- Set the sticky bits that an access met (R136). -/
def Crew.noteFlags (c : Crew) (f : NearFlags) : Crew :=
  let c := if f.gap then c.setStatus .gap else c
  let c := if f.modemiss then c.setStatus .modemiss else c
  if f.deadread then c.setStatus .deadread else c

/-- One byte read at a near place. -/
def State.placeByte (s : State) (p : Place) : Nat × NearFlags :=
  match p with
  | .reg k o =>
    let x := (s.crew k).slot (o / 128) (o % 128 / 4)
    if x.rel then (0, { deadread := true }) else (byteOf' x.val.toNat (o % 4), {})
  | .pad b o => ((Memory.read (s.block b).pad o).toNat, {})
  | .tile b o =>
    let t := Tab.get Tile.init (s.block b).slots (o / 16384)
    if t.compute then (0, { modemiss := true }) else ((Memory.read t.weights (o % 16384)).toNat, {})
  | .gap => (0, { gap := true })
  | _ => (0, {})
where byteOf' (a e : Nat) : Nat := a / 2 ^ (8 * e) % 256

/-- One byte written at a near place. Register slots take count 0b00 (R27); lanes of a pending form are held (R92). -/
def State.putByte (s : State) (p : Place) (v : Nat) : State × NearFlags :=
  match p with
  | .reg k o =>
    let c := s.crew k
    let r := o / 128
    let l := o % 128 / 4
    let w := BitVec.ofNat 32 (putBits (c.laneWord r l).toNat (8 * (o % 4) + 7) (8 * (o % 4)) v)
    let c := c.writeReg r l w 0
    (s.setCrew k (c.holdLane r l w), {})
  | .pad b o =>
    (s.modBlock b (fun x => { x with
      pad := Memory.write x.pad o (BitVec.ofNat 8 v)
      young := (s.cycle, o, 1) :: x.young.filter (fun y => decide (s.cycle < y.1 + 257)) }), {})
  | .tile b o =>
    let t := Tab.get Tile.init (s.block b).slots (o / 16384)
    if t.compute then (s, { modemiss := true })
    else
      let t := { t with weights := Memory.write t.weights (o % 16384) (BitVec.ofNat 8 v) }
      (s.modBlock b (fun x => { x with slots := Tab.set Tile.init x.slots (o / 16384) t }), {})
  | .gap => (s, { gap := true })
  | _ => (s, {})

/-- Read n bytes of the near window, lowest first. -/
def State.nearRead (s : State) (k core off : Nat) : Nat → Nat × NearFlags
  | 0 => (0, {})
  | n + 1 =>
    let (v, f) := s.placeByte ((s.nearPlace k core off).getD .gap)
    let (w, g) := State.nearRead s k core (off + 1) n
    (v + 256 * w, f.or g)

/-- Write n bytes of the near window, lowest first. -/
def State.nearWrite (s : State) (k core off v : Nat) : Nat → State × NearFlags
  | 0 => (s, {})
  | n + 1 =>
    let (s, f) := s.putByte ((s.nearPlace k core off).getD .gap) (v % 256)
    let (s, g) := State.nearWrite s k core (off + 1) (v / 256) n
    (s, f.or g)

/-- A byte of the scratchpad that another core may not read yet (R280). -/
def State.tooYoung (s : State) (k core off n : Nat) : Bool :=
  (List.range n).any (fun e =>
    match s.nearPlace k core (off + e) with
    | some (.pad b o) => (s.block b).young.any (fun y => decide (s.cycle ≤ y.1 + 256) && decide (y.2.1 ≤ o) && decide (o < y.2.1 + y.2.2))
    | _ => false)

/-- The sector of a block's arrays that a near place lies in, as `Block.poison` numbers it. -/
def Place.sector : Place → Option (Nat × Nat)
  | .pad b o => some (b, o / 64)
  | .tile b o => some (b, 2 ^ 16 + o / 64)
  | _ => none

/-- A near place lies in a poisoned sector (R422). -/
def State.placePoison (s : State) (p : Place) : Bool :=
  match p.sector with
  | some (b, z) => (s.block b).poison.contains z
  | none => false

/-- Bytes of the near window that lie in a poisoned sector (R422). -/
def State.nearPoison (s : State) (k core off n : Nat) : Bool :=
  (List.range n).any (fun e => s.placePoison ((s.nearPlace k core (off + e)).getD .gap))

/-- Sectors and rows of a block that a condition names are marked as poisoned, or lose their marks. -/
def State.markBlock (s : State) (b : Nat) (zs : List Nat) (bad : Bool) : State :=
  if !bad && (s.block b).poison = [] then s
  else s.modBlock b (fun x => { x with poison :=
    (if bad then zs else []) ++ x.poison.filter (fun z => !zs.contains z) })

/-- Sectors of a near place that n bytes from it on touch, or, with `whole`, cover. -/
def Place.sectors (p : Place) (n : Nat) (whole : Bool) : List Nat :=
  match p with
  | .pad _ o => pick o 0
  | .tile _ o => pick o (2 ^ 16)
  | _ => []
where pick (o base : Nat) : List Nat :=
  ((sectorsOf o n).filter (fun z => !whole || (decide (o ≤ 64 * z) && decide (64 * z + 64 ≤ o + n)))).map (base + ·)

/-- The lanes of one store write these places, `size` bytes each: the sectors that they cover together lose their marks (R422). -/
def State.clearCovered (s : State) (ps : List Place) (size : Nat) : State :=
  let flat (p : Place) : Option (Nat × Nat) := match p with
    | .hbm q a => some (0, hbmAddr q a)
    | .pad b o => some (1 + b, o)
    | .tile b o => some (1 + b, 2 ^ 22 + o)
    | _ => none
  let fs := ps.filterMap flat
  let covered (unit at_ : Nat) : Bool := (List.range 64).all (fun e => fs.any (fun f => f.1 = unit && decide (f.2 ≤ at_ + e) && decide (at_ + e < f.2 + size)))
  let s := if s.poison = [] then s else { s with poison := s.poison.filter (fun p => !covered 0 (64 * p.1)) }
  ((ps.filterMap (fun p => p.sector.map Prod.fst)).eraseDups).foldl (fun s b =>
    s.markBlock b ((s.block b).poison.filter (fun z => decide (z < 2 ^ 17) && covered (1 + b) (64 * z))) false) s

/-! ## The range scoreboard (R248, R249) -/

/-- An address of the near window as a core's scoreboard compares it: the own core's cluster area is its scratchpad area. -/
def canonNear (core va : Nat) : Nat :=
  if isNear va && va % 2 ^ 24 / 2 ^ 21 = 4 + core % 4 then nwb + 2 ^ 21 + va % 2 ^ 21 else va

/-- Rounded size of the scratchpad that an area of the near window shows to a gang's crew on a core; 0 for other areas (R244). -/
def State.areaBytes (s : State) (core gang area : Nat) : Nat :=
  let g := if area = 1 then core else 4 * (core / 4) + (area - 4)
  if area = 1 || 4 ≤ area then
    (match s.gangBlockOn (coreSett core) gang g with
      | some b => padBytes (s.block b).scratch
      | none => 0)
  else 0

/-- Two runs of bytes overlap when their offsets wrap at Z. -/
def wrapOverlap (Z x n y m : Nat) : Bool :=
  decide ((y % Z + Z - x % Z) % Z < n) || decide ((x % Z + Z - y % Z) % Z < m)

/-- An access of a gang's crew overlaps an entry of a core's scoreboard: near ranges belong to one gang, and offsets of one
scratchpad wrap (R244, R249). -/
def State.meets (s : State) (core gang va n : Nat) (e : Score) : Bool :=
  let a := canonNear core va
  let lo := canonNear core e.lo
  let hi := lo + (e.hi - e.lo)
  let area (x : Nat) : Nat := x % 2 ^ 24 / 2 ^ 21
  if isNear a != isNear lo || (isNear a && e.gang != gang) then false
  else
    let Z := s.areaBytes core gang (area a)
    if isNear a && area a = area lo && area lo = area hi && Z != 0 then wrapOverlap Z a n lo (hi + 1 - lo)
    else decide (a ≤ hi) && decide (lo < a + n)

/-- Bytes of an access of a crew that overlap an entry of a core's scoreboard. -/
def State.scored (s : State) (core k va n : Nat) : Bool :=
  (s.core core).score.any (s.meets core (crewRec k) va n)

end Sys2Proof.Machine
end

