-- ==== Sys2Proof/Machine/Translate.lean ====
section
/-! DEFINITION. Address translation and faults (spec/15, R331 to R344): page-table entries, walks, TLBs, the check of
permissions and targets, the fault buffer. -/

namespace Sys2Proof.Machine

/-! ## Entries and walks (R333 to R336) -/

/-- Result of reading one entry. -/
inductive Entry where
  | invalid
  | malformed
  | table (pa : Nat)
  | leaf (l : Leaf)
deriving DecidableEq, Repr

/-- log2 of the page size of a leaf at a level. -/
def leafSize (level type : Nat) : Nat :=
  match level with | 2 => 32 | 1 => 21 | _ => if type = 3 then 16 else 12

/-- log2 of the size of the table that an entry of a level points to (R333). -/
def nextTable (level : Nat) : Nat := match level with | 3 => 15 | 2 => 14 | _ => 12

/-- An entry's fields and the checks of R334 to R336 that need no other table. A next table outside the own HBM makes the entry malformed
(log 126). -/
def decodeEntry (level e : Nat) : Entry :=
  let pa := bits e 51 12 * 4096
  let type := e % 4
  let ks := e.testBit 57
  let rep := e.testBit 56
  let rdup := e.testBit 55
  let sh := e.testBit 54
  let size := leafSize level type
  let combo := (!rep || (!ks && !rdup && !sh)) && (!sh || (!ks && !rdup)) && (!rdup || size = 16 || size = 21)
  if type = 0 then .invalid
  else if type = 1 then
    if level = 0 || e != pa + 1 || pa % 2 ^ nextTable level != 0 || pa / 2 ^ 37 != 0 then .malformed else .table pa
  else if level = 3 || (type = 3 && level != 0) || pa % 2 ^ size != 0 || !combo ||
      (!sh && (bits e 53 52 = 3 || bits e 9 2 != 0)) then .malformed
  else .leaf { size := size, key := bits e 63 58, ks := ks, rep := rep, rdup := rdup, sh := sh, cache := bits e 53 52,
               buf := bits e 9 2, pa := pa, w := e.testBit 11, x := e.testBit 10 }

/-- Lowest virtual bit that indexes a level. -/
def levelShift (level : Nat) : Nat := match level with | 3 => 44 | 2 => 32 | 1 => 21 | _ => 12

/-- Address of the entry of a level for a virtual address. -/
def entryAddr (table level va : Nat) : Nat :=
  table + 8 * (va / 2 ^ levelShift level % (match level with | 3 => 4096 | 2 => 4096 | 1 => 2048 | _ => 512))

/-- Frame of a replicated leaf lies inside a valid area of the sett (R355). -/
def Sett.inArea (t : Sett) (pa n : Nat) : Option Nat :=
  (t.areas.find? (fun p => p.2.v && decide (p.2.base ≤ pa) && decide (pa + n ≤ p.2.base + p.2.size))).map Prod.fst

/-- End of a walk. -/
inductive WalkEnd where
  | leaf (l : Leaf)
  | fault (kind level : Nat)
deriving DecidableEq, Repr

/-- Read the entries from a level down; `walk cache` entries stand in for memory (R338). Walkers use key slot 0. Of the 16 entries of a
64 KiB page that differ, the walk takes the one at the address's own index (log 125). -/
def State.walkFrom (s : State) (sett va : Nat) : Nat → Nat → WalkEnd
  | level, table =>
    let a := entryAddr table level va
    let cached := ((s.sett sett).wcache.find? (fun w => w.1 = level && w.2.1 = va / 2 ^ levelShift level)).map (fun w => w.2.2)
    let e := match cached with | some e => e | none => s.hbmRead sett a 8
    match decodeEntry level e with
    | .invalid => .fault 1 level
    | .malformed => .fault 6 level
    | .leaf l =>
      if l.rep && ((s.sett sett).inArea l.pa (2 ^ l.size)).isNone then .fault 6 level else .leaf l
    | .table pa =>
      match level with
      | 0 => .fault 6 0
      | n + 1 => State.walkFrom s sett va n pa

/-- A whole walk (R333). -/
def State.walk (s : State) (sett va : Nat) : WalkEnd := s.walkFrom sett va 3 ((s.sett sett).base 0)

/-! ## Physical targets (R332, R351, R457) -/

/-- The outbound filter passes an access (R456, R457). -/
def Sett.filterOk (t : Sett) (a n : Nat) (rd wr : Bool) : Bool :=
  t.filter.any (fun p => p.2.en && decide (p.2.base * 4096 ≤ a) && decide (a + n ≤ (p.2.limit + 1) * 4096) &&
    (!rd || p.2.r) && (!wr || p.2.w))

/-- Outcome of a translation. -/
inductive Xlate where
  | ok (t : Target)
  | miss
  | fault (kind level : Nat)
  /-- the access is refused with the address-space trap (R140, R351) -/
  | space
deriving DecidableEq, Repr

def windowOf (t : Sett) (w : Nat) : Window := Tab.get Window.init t.windows w

/-- Where a window access arrives, judged by the accessor's window table (R351). -/
def State.windowTarget (s : State) (sett pa : Nat) (acc : Access) (t : Target) : Xlate :=
  let w := bits pa 47 40
  let off := pa % 2 ^ 40
  let e := windowOf (s.sett sett) w
  let module := e.handle / 2 ^ 52
  if e.st != 1 || decide (e.size ≤ off) || (bits pa 51 48 = 1) != (module = 0) then .fault 8 t.level
  else
    let right := match acc with | .read | .fetch => e.r | .write => e.p | .atomic => e.a
    if !right then .space
    else if module != 0 then .ok { t with place := .remote w off, window := some w }
    else
      let owner := e.handle / 2 ^ 49 % 8
      let base := s.hbmRead owner ((s.sett owner).base 4 + 64 * bits e.handle 48 40 + 56) 8
      .ok { t with place := .hbm owner (base + off), window := some w }

/-- The shadow table's word for a buffer (R337). -/
def State.shadowWord (s : State) (sett buf : Nat) : Nat := s.hbmRead sett ((s.sett sett).base 2 + 8 * buf) 8

/-- Buffer number of a shadowed leaf (R334). -/
def Leaf.buffer (l : Leaf) : Nat := 256 * l.cache + l.buf

/-- Physical address of an access through a leaf; `shadow` takes the frame that is not visible (R268). -/
def State.leafAddr (s : State) (sett va : Nat) (l : Leaf) (shadow : Bool) : Nat :=
  let off := va % 2 ^ l.size
  if l.sh then
    let w := s.shadowWord sett l.buffer
    l.pa + off + (if w.testBit 63 != shadow then bits w 51 12 * 4096 else 0)
  else l.pa + off

/-- A target with the frame of its shadowed page that stands when the access is performed (R269). -/
def State.visible (s : State) (sett : Nat) (t : Target) : Target :=
  let w := s.shadowWord sett t.buf
  let second := w.testBit 63 != t.shadow
  if !t.sh || second = t.second then t
  else match t.place with
    | .hbm q a =>
      let dist := bits w 51 12 * 4096
      { t with second := second, place := .hbm q (if second then a + dist else a - dist) }
    | _ => t

/-- Level of a leaf by its size. -/
def sizeLevel (size : Nat) : Nat := if size = 32 then 2 else if size = 21 then 1 else 0

/-- The access that a leaf gives: permissions, then the target (R340). The key is judged when the access is performed (R455), which a
fetch is at once. -/
def State.applyLeaf (s : State) (sett va n : Nat) (acc : Access) (l : Leaf) (shadow : Bool) : Xlate :=
  let wr := acc = .write || acc = .atomic
  let lev := sizeLevel l.size
  let pa := s.leafAddr sett va l shadow
  let t : Target := { place := .gap, key := l.key, ks := l.ks, rep := l.rep, sh := l.sh, buf := l.buffer,
                      cache := if l.sh then 1 else l.cache, level := lev, shadow := shadow,
                      second := l.sh && (s.shadowWord sett l.buffer).testBit 63 != shadow }
  if wr && !l.w then .fault 2 lev
  else if wr && l.rdup then .fault 3 lev
  else if acc = .fetch && !l.x then .fault 4 lev
  else
    match bits pa 51 48 with
    | 0 =>
      if pa / 2 ^ 37 != 0 then .fault 8 lev
      else if acc = .fetch && (s.keyOf sett l.key).isNone then .fault 7 lev
      else .ok { t with place := .hbm sett pa }
    | 1 | 2 => s.windowTarget sett pa acc t
    | 3 | 4 | 5 | 6 | 7 => .fault 8 lev
    | _ =>
      let a := pa % 2 ^ 51
      if (s.sett sett).filterOk a n (acc != .write) wr then .ok { t with place := .host a } else .fault 8 lev

/-! ## TLBs (R338) -/

def TlbEntry.covers (e : TlbEntry) (va : Nat) : Bool := va / 2 ^ e.leaf.size = e.vpn

def tlbFind (l : List TlbEntry) (va : Nat) : Option Leaf := (l.find? (fun e => e.covers va)).map TlbEntry.leaf

/-- Move the entry that covers an address to the front. -/
def tlbTouch (l : List TlbEntry) (va : Nat) : List TlbEntry :=
  match l.find? (fun e => e.covers va) with
  | none => l
  | some e => e :: l.filter (fun x => x != e)

/-- Fill an entry as the most recently used; the least recently used of a full set leaves. -/
def tlbFill (sets ways : Nat) (l : List TlbEntry) (e : TlbEntry) : List TlbEntry :=
  let l := l.filter (fun x => !(x.vpn = e.vpn && x.leaf.size = e.leaf.size))
  let mine := l.filter (fun x => x.vpn % sets = e.vpn % sets)
  match mine.getLast? with
  | some last => if ways ≤ mine.length then e :: l.filter (fun x => x != last) else e :: l
  | none => e :: l

def entryFor (va : Nat) (l : Leaf) : TlbEntry := ⟨va / 2 ^ l.size, l⟩

def State.fillCoreTlb (s : State) (core va : Nat) (l : Leaf) : State :=
  s.modCore core (fun c => { c with tlb := tlbFill 32 8 c.tlb (entryFor va l) })

/-- Translation of an address outside the near window at a core (R338, R340). -/
def State.translate (s : State) (sett core va n : Nat) (acc : Access) (shadow : Bool := false) : Xlate :=
  if 2 ^ 56 ≤ va then .fault 5 0
  else
    match tlbFind (s.core core).tlb va with
    | none => .miss
    | some l => s.applyLeaf sett va n acc l shadow

/-- Translation of an address for a crew's instruction: what its misses have been brought stands beside the core TLB until the
instruction is performed, so that lanes of more pages than a set has ways come to be performed (R141). -/
def State.translateFor (s : State) (k va n : Nat) (acc : Access) : Xlate :=
  match s.translate (crewSett k) (s.crew k).core va n acc with
  | .miss => (match tlbFind ((s.crew k).brought.map Prod.snd) va with
      | some l => s.applyLeaf (crewSett k) va n acc l false
      | none => .miss)
  | x => x

/-! ## Walks in progress -/

/-- Cycles until a miss is answered: 60 for the shared TLB, then 120 or 390 for each level read (R338). -/
def State.walkTime (s : State) (sett va : Nat) : Nat :=
  if (tlbFind (s.sett sett).stlb va).isSome then 60
  else
    let rec go : Nat → Nat → Nat
      | level, table =>
        let a := entryAddr table level va
        let cached := (s.sett sett).wcache.find? (fun w => w.1 = level && w.2.1 = va / 2 ^ levelShift level)
        let e := match cached with | some w => w.2.2 | none => s.hbmRead sett a 8
        let t := if cached.isSome then 0
                 else if Tab.get false (s.sett sett).llc (a / 128) then 120 else 390
        match level, decodeEntry level e with
        | n + 1, .table pa => t + go n pa
        | _, _ => t
    60 + go 3 ((s.sett sett).base 0)

/-- Walks of a sett in its miss table. -/
def State.walksOf (s : State) (sett : Nat) : List (Nat × Walk) :=
  s.walks.filterMap (fun p => match p.2 with
    | none => none
    | some x => if x.sett = sett then some (p.1, x) else none)

/-- The shared TLB's miss table of 512 entries is full (R338). -/
def State.missTableFull (s : State) (sett : Nat) : Bool := decide (512 ≤ (s.walksOf sett).length)

/-- All 64 walkers of a base die are reading tables (R338). -/
def State.walkersBusy (s : State) (sett : Nat) : Bool :=
  decide (64 ≤ ((s.walksOf sett).filter (fun p => p.2.running && p.2.hit.isNone)).length)

/-- A miss starts a walk, or joins the walk of its 4 KiB page; one that finds the miss table full waits at its core (R338). -/
def State.startWalk (s : State) (sett core va : Nat) (acc : Access) (w : Waiter) : State :=
  match (s.walksOf sett).find? (fun p => p.2.va / 4096 = va / 4096) with
  | some (id, x) => { s with walks := Tab.set none s.walks id (some { x with waiters := x.waiters ++ [w] }) }
  | none =>
    if s.missTableFull sett then
      s.modSett sett (fun t => { t with missWait := t.missWait ++ [⟨core, va, acc, w⟩] })
    else
      let (id, s) := s.fresh
      let hit := tlbFind (s.sett sett).stlb va
      let x : Walk := { sett := sett, core := core, va := va, access := acc, started := s.cycle, waiters := [w], hit := hit,
                        running := hit.isSome || !s.walkersBusy sett }
      let s := (s.modSett sett (fun t => { t with stlb := tlbTouch t.stlb va }))
      let s := { s with walks := Tab.set none s.walks id (some x) }
      if x.running then s.schedule (s.walkTime sett va) 40 (.translationWalkDone id) else s

/-- A walk has ended: the oldest one without a walker gets one, and a miss that waited enters the table (R338). -/
def State.nextWalk (s : State) (sett : Nat) : State :=
  let s := match (s.walksOf sett).find? (fun p => !p.2.running) with
    | some (id, x) =>
      if s.walkersBusy sett then s
      else { s with walks := Tab.set none s.walks id (some { x with running := true }) }.schedule (s.walkTime sett x.va) 40
        (.translationWalkDone id)
    | none => s
  match (s.sett sett).missWait with
  | [] => s
  | m :: rest =>
    if s.missTableFull sett then s
    else (s.modSett sett (fun t => { t with missWait := rest })).startWalk sett m.core m.va m.access m.waiter

/-! ## Faults (R340 to R344) -/

/-- A fault kind that system software can repair (R340). -/
def replayable (kind : Nat) : Bool := kind = 1 || kind = 2 || kind = 3 || kind = 4

def Access.code : Access → Nat
  | .read => 0 | .write => 1 | .atomic => 2 | .fetch => 3

/-- The entry that an open fault of one page and access kind has (R341). -/
def State.openEntry (s : State) (sett : Nat) (f : FaultEntry) : Option Nat :=
  if !f.rp then none
  else ((s.sett sett).faults.find? (fun p =>
    (p.2.res = 0 || p.2.res = 1) && p.2.rp && p.2.va / 4096 = f.va / 4096 && p.2.access = f.access)).map Prod.fst

/-- Lowest-numbered free entry of the 4,096 (R341); the table's default is free. -/
def State.freeEntry (s : State) (sett : Nat) : Option Nat :=
  (List.range (min 4096 ((s.sett sett).faults.length + 1))).find? (fun e => (s.fault sett e).res = 3)

/-- Record a fault: it joins an open entry, takes a free one, or waits at the walker (R341). The new entry of a
replayable fault has its service card posted (R343). Answers the entry. -/
def State.recordFault (s : State) (sett : Nat) (f : FaultEntry) : Option Nat × State :=
  match s.openEntry sett f with
  | some e =>
    let x := s.fault sett e
    (some e, s.setFault sett e { x with waiters := x.waiters ++ f.waiters })
  | none =>
    match s.freeEntry sett with
    | some e =>
      let x := s.fault sett e
      let s := s.setFault sett e { f with res := 0, seq := x.seq + 1, pst := false, opened := s.cycle }
      (some e, if f.rp then s.schedule 0 45 (.faultServiceCardPost sett) else s)
    | none => (none, s.modSett sett (fun t => { t with faultWait := t.faultWait ++ [f] }))

/-- Issue order of the instruction of a waiter: its cycle, or the number of its copy or operation (R341). -/
def State.issueOrder (s : State) : Waiter → Nat
  | .threads _ _ _ since => since
  | .load r | .prefetch r => (match s.req r with | some q => q.issued | none => 0)
  | .copy i _ _ => i
  | .seq _ op _ _ => op
  | .late _ _ _ issued => issued

/-- A fault reaches the fault unit, which takes the faults of a cycle together (R341). -/
def State.faultArrives (s : State) (sett : Nat) (f : FaultEntry) : State :=
  let order := match f.waiters with | w :: _ => s.issueOrder w | [] => 0
  let first := (s.sett sett).arrivals = []
  let s := s.modSett sett (fun t => { t with arrivals := t.arrivals ++ [⟨f, order⟩] })
  if first then s.schedule 0 45 (.faultServiceCardPost sett) else s

/-- What a crew's instruction puts into a fault entry (R342). -/
def State.crewFault (s : State) (k : Nat) (pc : BitVec 64) (va kind level : Nat) (acc : Access) (lanes : LaneMask)
    (agent : Nat) (w : Waiter) : FaultEntry :=
  { va := va, pc := pc.toNat, lanes := lanes.toNat, gangRec := crewRec k, block := blockId (crewBlock k), crew := k % 32,
    core := (s.crew k).core, kind := kind, access := acc.code, level := level, agent := agent, rp := replayable kind,
    waiters := [w] }

/-- Threads of a crew stop at their instruction until a waiter entry wakes them (R141). -/
def State.parkThreads (s : State) (k : Nat) (m : LaneMask) : State :=
  s.modCrew k (fun c => c.onThreads (lanesOf m) (fun t => { t with st := .parked }))

/-- Parked threads become ready again. -/
def State.unpark (s : State) (k : Nat) (m : LaneMask) : State :=
  s.modCrew k (fun c => c.onThreads (lanesOf m) (fun t => if t.st = .parked then { t with st := .ready } else t))

/-- The crew stands on a fault: none of its threads is ready (R141, R341). -/
def State.crewParked (s : State) (k : Nat) : Bool :=
  let mine (f : FaultEntry) : Bool := f.waiters.any (fun w => match w with
    | .threads c _ _ _ => c = k
    | _ => false)
  let held (f : FaultEntry) : Bool := mine f || f.waiters.any (fun w => match w with
    | .late c _ _ _ => c = k
    | _ => false)
  let t := s.sett (crewSett k)
  t.faults.any (fun p => p.2.res != 3 && mine p.2) || t.faultWait.any held || t.arrivals.any (fun a => mine a.fault)

/-- A fault of a crew instruction parks its threads: a replayable one until the fill, another one until its entry is written and the
trap is delivered (R141, R341). -/
def State.instrFault (s : State) (k : Nat) (pc : BitVec 64) (va kind level : Nat) (acc : Access) (m bad : LaneMask) :
    State :=
  (s.faultArrives (crewSett k) (s.crewFault k pc va kind level acc bad 0 (.threads k pc m s.cycle))).parkThreads k m

/-- A miss of a crew instruction: its threads wait at it for the walk (log 14). -/
def State.instrMiss (s : State) (k : Nat) (pc : BitVec 64) (va : Nat) (acc : Access) (m : LaneMask) : State :=
  (s.startWalk (crewSett k) (s.crew k).core va acc (.threads k pc m s.cycle)).parkThreads k m

end Sys2Proof.Machine
end

