-- ==== Sys2Proof/Machine/Access.lean ====
section
/-! DEFINITION. The addresses of memory instructions (R139 to R141): lane addresses, sizes, overlap with requests in
flight, and the conditions that hold a memory or engine instruction back. -/

namespace Sys2Proof.Machine

/-- Bytes of a size field (R51). -/
def sizeBytes (z : Nat) : Nat :=
  match z with | 0 | 1 => 1 | 2 | 3 => 2 | 4 => 4 | 5 => 8 | _ => 16

/-- The 64-bit address of a lane: the pair that the first source names (R139). -/
def Crew.laneAddr (c : Crew) (i : Instr) (l : Nat) : Nat := c.operand ((info i).srcs.headD (0, 2)) (0, 0) l

/-- Bytes that an instruction accesses at its lane addresses, where it accesses any. -/
def accessBytes (i : Instr) : Option Nat :=
  match i with
  | .ld _ _ _ z _ _ | .lda _ _ _ z _ _ | .st _ z _ _ _ _ | .stl _ z _ _ _ _ => some (sizeBytes z.toNat)
  | .ldk .. | .rcn .. | .rcnx .. | .atom .. | .atomr .. | .red .. => some 4
  | .atom64 .. => some 8
  | .dqpush .. | .dqpop .. | .dqsteal .. | .binit .. | .arv .. | .bexp .. | .waitp .. | .tryw .. => some 16
  | _ => none

/-- Whether a request writes at its addresses. -/
def ReqKind.writes : ReqKind → Bool
  | .load | .lda | .ldk | .post | .tlbinv | .spill | .fill | .publ | .pref | .evict => false
  | _ => true

/-- Loads. -/
def ReqKind.reads : ReqKind → Bool
  | .load | .lda | .ldk => true
  | _ => false

/-- Whether an instruction writes at its addresses. -/
def instrWrites (i : Instr) : Bool :=
  match i with
  | .ld .. | .lda .. | .ldk .. | .waitp .. | .tryw .. => false
  | _ => true

/-- RED, an atomic that a queued store to its bytes holds back; behind any other it enters the egress queue (R93, R94, R155). -/
def isRed : Instr → Bool
  | .red .. => true
  | _ => false

/-- Bytes of one lane of a request. -/
def LaneReq.overlaps (x : LaneReq) (size va n : Nat) : Bool := decide (va < x.va + size) && decide (x.va < va + n)

def Req.overlaps (r : Req) (va n : Nat) : Bool := r.lanes.any (fun x => x.overlaps r.size va n)

/-- Requests of a crew in flight, by identifier. -/
def State.crewReqs (s : State) (k : Nat) : List (Nat × Req) :=
  s.reqs.filterMap (fun p => match p.2 with
    | none => none
    | some r => if r.crew = k then some (p.1, r) else none)

/-- A request is performed once every lane is (R29, R273); a put that has left its sett holds no release back (R353). -/
def Req.performed (r : Req) : Bool := r.phase = 2 || r.lanes.all LaneReq.done

/-- A store through a window that has left its sett: no release waits for it, but the crew's accesses to the same bytes do
(R272, R273 rule 4, R353). -/
def Req.windowPut (r : Req) : Bool := r.phase = 2 && r.dst = 0 && r.group = 0 && !r.lanes.all LaneReq.done

/-- Whether what an identifier names is still to be performed: a request, or an operation of a sequencer. `wide` asks
for completion, which at .pkg and wider includes the invalidations (R368). -/
def State.undone (s : State) (wide : Bool) (id : Nat) : Bool :=
  (match s.req id with | none => false | some r => !r.performed || r.windowPut || (wide && r.awaiting)) ||
  s.cores.any (fun p => p.2.seq.any (fun o => o.id = id))

/-- Earlier accesses of the crew to some of the same bytes that are not performed yet, of the kinds named. -/
def State.overlapWith (s : State) (k : Nat) (ranges : List (Nat × Nat)) (kinds : ReqKind → Bool) : List Nat :=
  ((s.crewReqs k).filter (fun p => (!p.2.performed || p.2.windowPut) && kinds p.2.kind &&
    ranges.any (fun x => p.2.overlaps x.1 x.2))).map Prod.fst

/-- Earlier accesses of the crew that must be performed before one to the same bytes that writes, or that waits (R272, R273
rule 4). -/
def State.overlapDeps (s : State) (k : Nat) (ranges : List (Nat × Nat)) (writes : Bool) : List Nat :=
  s.overlapWith k ranges (fun x => writes || x.writes)

/-- Earlier accesses that must be performed before a load of the same bytes: two loads of one word never see it go back
(R272). -/
def State.loadDeps (s : State) (k : Nat) (ranges : List (Nat × Nat)) : List Nat :=
  s.overlapWith k ranges (fun x => x.writes || x.reads)

/-- Everything that a release waits for (R146, R218): the crew's requests and its ACC operations that write memory. -/
def State.releaseDeps (s : State) (k : Nat) : List Nat :=
  ((s.crewReqs k).filter (fun p => !p.2.performed || (p.2.awaiting && p.2.phase != 2))).map Prod.fst ++
  s.cores.flatMap (fun p => (p.2.seq.filter (fun o => o.crew = k && o.writesMem)).map SeqOp.id)

/-- Crew registers that a range of the near window names. -/
def State.nearRegs (s : State) (k va n : Nat) : List (Nat × Nat) :=
  if !isNear va then []
  else ((List.range ((n + 3) / 4)).filterMap (fun w =>
    match s.nearPlace k (s.crew k).core (va % 2 ^ 24 + 4 * w) with
    | some (.reg c o) => some (c, o / 128)
    | _ => none)).eraseDups

/-- Barrier and wait instructions, which one crew performs on one object in program order (R163). -/
def isBarrier (i : Instr) : Bool :=
  match i with
  | .waitp .. | .tryw .. => true
  | _ => false

/-- COPY and PUT take one place of the copy engine for each active lane (R29, R167). -/
def copyPlaces (i : Instr) (n : Nat) : Nat := match i with | .copy .. | .put .. => n | _ => 0

/-- Engine instructions that wait for the crew's earlier stores (R167, R214). -/
def waitsForStores (i : Instr) : Bool :=
  match i with
  | .copy .. | .put .. | .publ .. | .coll .. | .mload .. | .amodeStorage .. | .amodeCompute .. | .mmv .. | .mmg ..
  | .acc .. => true
  | _ => false

/-- Matrix instructions need a free place among the 32 of the core's queue (R214, R215). -/
def isMatrix (i : Instr) : Bool :=
  match i with
  | .mload .. | .amodeStorage .. | .amodeCompute .. | .mmv .. | .mmg .. | .acc .. => true
  | _ => false

/-- Conditions of the memory system that hold an instruction back (R92, R94, R162, R167, R182, R214, R242). -/
def State.memHeld (s : State) (k : Nat) (i : Instr) (m : LaneMask) : Bool :=
  let c := s.crew k
  let g := s.core c.core
  let act := c.active i m
  let ranges := match accessBytes i with | none => [] | some n => act.map (fun l => (c.laneAddr i l, n))
  let regs := ranges.flatMap (fun x => s.nearRegs k x.1 x.2)
  let queued := (s.crewReqs k).filter (fun p => p.2.queued)
  -- R94: a load or atomic whose bytes overlap a queued store
  ((!(instrWrites i) || isRed i) && queued.any (fun p => ranges.any (fun x => p.2.overlaps x.1 x.2))) ||
  -- R92, R242: registers through the near window
  regs.any (fun r => (s.crew r.1).inFlight.contains r.2 || (!instrWrites i && (s.crew r.1).pendingReg r.2)) ||
  -- R163: a wait after a barrier instruction on its object that is still on its way
  (isBarrier i && s.overlapDeps k ranges false != []) ||
  (waitsForStores i && (c.stores != 0 || c.egress != [])) ||
  -- R373: the zero-length reads after a fence at .sys
  (isStoreLike i && decide (s.cycle < c.fenceUntil)) ||
  decide (128 < g.copies.length + copyPlaces i act.length && 0 < copyPlaces i act.length) ||
  (isMatrix i && decide (32 ≤ g.queueUsed)) ||
  (match i with
    | .coll .. => decide (256 ≤ (s.sett (crewSett k)).colls.length)
    | .sysPost .. => decide (16 < g.post.length + act.length)
    | .leaseSpill _ d a _ =>
      let n := (c.slot (c.win a.toNat) (act.headD 0)).val.toNat
      (List.range (min n 32)).any (fun j => c.pendingReg (c.win (d.toNat + j)) || c.inFlight.contains (c.win (d.toNat + j)))
    | .leaseFill _ d a _ =>
      let n := (c.slot (c.win a.toNat) (act.headD 0)).val.toNat
      (List.range (min n 32)).any (fun j => c.pendingReg (c.win (d.toNat + j)) || c.inFlight.contains (c.win (d.toNat + j)))
    | _ => false)

/-- A decoded instruction of a path does not issue. -/
def State.held (s : State) (k : Nat) (i : Instr) (m : LaneMask) : Bool := (s.crew k).held_ i m || s.memHeld k i m

/-- The frame of a memory or engine instruction's meaning: as `State.issue`, with the memory system's conditions and
with traps of its own, found before any effect, between those of R48 and its effect (R141). -/
def State.issueMem (s : State) (i : Instr) (trap : Issue → Option (Trap × Nat)) (body : Issue → Out) : Out :=
  s.issue i (fun u =>
    if s.memHeld u.crew i u.lanes then .next s
    else
      match trap u with
      | some (t, why) => .next (s.takeTrap u.crew t u.pc why (some u.lanes))
      | none => body u)

end Sys2Proof.Machine
end

