-- ==== Sys2Proof/Machine/Fetch.lean ====
section
/-! DEFINITION. Instruction fetch (R42, R61), readiness (R17), and the choice of paths and crews for the issue slots
(R18 to R23). -/

namespace Sys2Proof.Machine

/-! ## Fetch -/

/-- Outcome of a fetch. -/
inductive Fetched where
  | instr (i : Instr)
  | illegal (info : Nat)
  | miss (va : Nat)
  | fault (va kind level : Nat)
deriving DecidableEq, Repr

/-- One instruction word. A word of HBM that the crew's running launch wrote is the old word or the new one (R61,
log 11); the near window is read as it stands (log 15). -/
def State.fetchWord (s : State) (k va : Nat) : Except Fetched Word :=
  let core := (s.crew k).core
  if isNear va then .ok (BitVec.ofNat 32 (s.nearRead k core (va % 2 ^ 24) 4).1)
  else
    match s.translate (crewSett k) core va 4 .fetch with
    | .miss => .error (.miss va)
    | .space => .error (.fault va 8 0)
    | .fault kind level => .error (.fault va kind level)
    | .ok t =>
      let w := BitVec.ofNat 32 (s.memRead t 4).1
      match t.place with
      | .hbm sett a =>
        match Tab.get none s.codeOld (hbmAddr sett a / 4) with
        | some (l, old) =>
          if l = s.launchOf k && Config.torn s.cycle (a / 4) then .ok old else .ok w
        | none => .ok w
      | _ => .ok w

/-- Further words that an instruction needs after its first: base word after a prefix, LDI's literal. -/
def State.fetchRest (s : State) (k va : Nat) (w : Word) : Except Fetched (List Word) := do
  if fM w = 127 then
    let b ← s.fetchWord k (va + 4)
    if fM b = 78 then
      let lit ← s.fetchWord k (va + 8)
      pure [w, b, lit]
    else pure [w, b]
  else if fM w = 78 then
    let lit ← s.fetchWord k (va + 4)
    pure [w, lit]
  else pure [w]

/-- TRAPINFO of words that are no instruction, with the reason that the crew's mode adds (R60). -/
def State.illegalWords (s : State) (k : Nat) (ws : List Word) (why : Nat) : Nat :=
  match ws.filter (fun w => fM w != 127) with
  | [] => why
  | b :: _ => match decodeBase none b 0 with
    | .ok i => if s.modeOk k i then why else withReason4 (some why)
    | .error _ => why

/-- Fetch and decode the instruction at an address of a crew (R42). -/
def State.fetch (s : State) (k va : Nat) : Fetched :=
  match (do let w ← s.fetchWord k va
            s.fetchRest k va w : Except Fetched (List Word)) with
  | .error e => e
  | .ok ws =>
    match decode (ws.flatMap wordBytes) with
    | .ok (i, _) => .instr i
    | .error (.illegal n) => .illegal (s.illegalWords k ws n)
    | .error .short => .illegal 1

/-! ## Readiness (R17) -/

/-- The core issues: it is not restoring, not fenced, not gated (R261, R262, R416). -/
def Core.issues (g : Core) : Bool := g.restoring.isNone && !g.fenced && g.gate = 0

/-- The crew as a whole may issue. -/
def State.crewRuns (s : State) (k : Nat) : Bool :=
  let c := s.crew k
  c.live && !c.stopped && decide (c.nextAt ≤ s.cycle) && decide ((s.block (crewBlock k)).readyAt ≤ s.cycle) &&
  (s.core c.core).issues && !s.crewParked k

/-- Threads that could issue, grouped by program counter, ascending. -/
def Crew.standing (c : Crew) (now : Nat) : List (BitVec 64 × LaneMask) :=
  let ts := c.threads.filter (fun p => p.2.st = .ready && decide (p.2.due ≤ now))
  let pcs := sortBy (fun a b => a.toNat ≤ b.toNat) (ts.map (fun p => p.2.pc)).eraseDups
  pcs.map (fun a => (a, maskOf ((ts.filter (fun p => p.2.pc = a)).map Prod.fst)))

/-- The path's instruction, where it could be fetched; what a fetch that fails does happens at issue. -/
def State.pathReady (s : State) (k : Nat) (p : BitVec 64 × LaneMask) : Bool :=
  match s.fetch k p.1.toNat with
  | .instr i => !(s.crew k).sourceBusy i s.cycle && !s.held k i p.2 && !(s.crew k).waitHolds i p.2
  | _ => true

/-- The ready paths of a crew (R17, R21). -/
def State.paths (s : State) (k : Nat) : List (BitVec 64 × LaneMask) :=
  if s.crewRuns k then ((s.crew k).standing s.cycle).filter (s.pathReady k) else []

def State.crewReady (s : State) (k : Nat) : Bool := s.paths k != []

/-! ## The order of paths (R21, R181) -/

/-- Highest wait counter among the threads of a path. -/
def Crew.pathWait (c : Crew) (m : LaneMask) : Nat := (lanesOf m).foldl (fun a l => max a (c.thread l).wait) 0

/-- A path whose instruction is SYS.conv (R181). -/
def State.atConv (s : State) (k : Nat) (p : BitVec 64 × LaneMask) : Bool :=
  match s.fetch k p.1.toNat with | .instr (.sysConv ..) => true | _ => false

/-- Path p is taken before path q: promoted paths by wait counter, the rest by population, ties by program counter (R21). -/
def State.pathBefore (s : State) (k : Nat) (p q : BitVec 64 × LaneMask) : Bool :=
  let c := s.crew k
  let wp := c.pathWait p.2
  let wq := c.pathWait q.2
  let tie := decide (p.1.toNat ≤ q.1.toNat)
  if decide (64 ≤ wp) && decide (64 ≤ wq) then if wp = wq then tie else decide (wq < wp)
  else if decide (64 ≤ wp) then true
  else if decide (64 ≤ wq) then false
  else
    let np := (lanesOf p.2).length
    let nq := (lanesOf q.2).length
    if np = nq then tie else decide (nq < np)

/-- Single-path instructions (R30); a fetch that fails issues alone. -/
def State.issuesAlone (s : State) (k : Nat) (p : BitVec 64 × LaneMask) : Bool :=
  match s.fetch k p.1.toNat with
  | .instr i => (info i).cls = .single
  | _ => true

/-- The one or two paths that issue together (R21). A path at SYS.conv that is not promoted is chosen only where it is the one path
that is ready (R181). -/
def State.choosePaths (s : State) (k : Nat) : List (BitVec 64 × LaneMask) :=
  let all := s.paths k
  let chosen := if all.length ≤ 1 then all else all.filter (fun p => decide (64 ≤ (s.crew k).pathWait p.2) || !s.atConv k p)
  match sortBy (s.pathBefore k) chosen with
  | p :: q :: _ => if s.issuesAlone k p || s.issuesAlone k q then [p] else [p, q]
  | ps => ps

/-! ## The slots (R20, R23) -/

/-- Crew in an entry of a core's active set. -/
def Core.entry (g : Core) (e : Nat) : Option Active := Tab.get none g.active e

/-- The crew that a slot chooses: the ready one whose last issue lies furthest back, ties by entry (R20). -/
def State.slotChoice (s : State) (core slot : Nat) : Option Nat :=
  let g := s.core core
  if s.cycle < Tab.get 0 g.slotBusy slot then none
  else
    (([0, 1, 2, 3].map (fun j => slot + 4 * j)).filterMap (fun e =>
      if s.cycle < Tab.get 0 g.entryBusy e then none
      else match g.entry e with
        | some a => if s.crewReady a.crew && s.choosePaths a.crew != [] then some (max (s.crew a.crew).lastIssue a.entered, a.crew) else none
        | none => none)).foldl (fun (best : Option (Nat × Nat)) x =>
          match best with
          | none => some x
          | some b => if x.1 < b.1 then some x else some b) none |>.map Prod.snd

def State.issueOf (s : State) (k slot : Nat) (p : BitVec 64 × LaneMask) : Issue :=
  { crew := k, pc := p.1, lanes := p.2, before := (s.crew k).regs, slot := slot }

/-- A partner for a slot that issues one path (R23). -/
def State.partner (s : State) (core k : Nat) (p : BitVec 64 × LaneMask) (taken : List Nat) : Option (Nat × (BitVec 64 × LaneMask)) :=
  let g := s.core core
  if s.issuesAlone k p then none
  else
    ((List.range 16).filterMap (fun e =>
      match g.entry e with
      | some a =>
        if crewBlock a.crew = crewBlock k && a.crew != k && !taken.contains a.crew &&
            decide (Tab.get 0 g.entryBusy e ≤ s.cycle) then
          match s.choosePaths a.crew with
          | q :: _ => if q.1 = p.1 && q.2 &&& p.2 = 0 then some (a.crew, q) else none
          | [] => none
        else none
      | none => none)).head?

/-- The issues of one core in this cycle (R20 to R23). -/
def State.coreTurn (s : State) (core : Nat) : List Issue :=
  let chosen := [0, 1, 2, 3].filterMap (fun j => (s.slotChoice core j).map (fun k => (j, k, s.choosePaths k)))
  let own := chosen.map (fun x => x.2.1)
  let step (acc : List Issue × List Nat) (x : Nat × Nat × List (BitVec 64 × LaneMask)) : List Issue × List Nat :=
    let mine := x.2.2.map (s.issueOf x.2.1 x.1)
    match x.2.2 with
    | [p] =>
      match s.partner core x.2.1 p acc.2 with
      | some (b, q) => (acc.1 ++ mine ++ [s.issueOf b x.1 q], b :: acc.2)
      | none => (acc.1 ++ mine, acc.2)
    | _ => (acc.1 ++ mine, acc.2)
  (chosen.foldl step ([], own)).1

/-- Cores that hold active crews. -/
def State.busyCores (s : State) : List Nat := (s.cores.filter (fun p => p.2.active != [])).map Prod.fst

/-- The issues of a cycle, core by core. -/
def State.plan (s : State) : List Issue := s.busyCores.flatMap s.coreTurn

end Sys2Proof.Machine
end

