-- ==== Sys2Proof/Machine/Control.lean ====
section
/-! DEFINITION. Control flow, the window and the SYS functions that need no engine (spec/06, R166, R175 to R181, R185). -/

namespace Sys2Proof.Machine

/-! ## Branches (R175, R176) -/

/-- ILLEGAL_INSTRUCTION (R60): the path's instruction is no instruction; `info` is the reason for TRAPINFO. -/
def execIllegalInstruction (info : Nat) (s : State) : Out :=
  match s.cur with
  | none => .next s
  | some u => .next (s.illegal u info)

/-- Move the active lanes to their targets; the other lanes of the path continue (R175). -/
def State.finishBranch (s : State) (u : Issue) (i : Instr) (c : Crew) (target : Nat → BitVec 64) : State :=
  let act := (s.crew u.crew).active i u.lanes
  let c := (c.advance u i s.cycle).settleResults i s.cycle
  let c := act.foldl (fun c l => c.modThread l (fun t => { t with pc := target l })) c
  (s.setCrew u.crew c).charge u i

/-- Target of the B21 format (R50): the word's address plus four times the immediate. -/
def relTarget (u : Issue) (k : BitVec 21) : BitVec 64 := u.pc + 4 * k.signExtend 64

/-- BRA (R175). -/
def execBra (i : BitVec 21) (g : BitVec 4) (s : State) : Out :=
  let x : Instr := .bra i g
  s.issue x (fun u => .next (s.finishBranch u x (s.crew u.crew) (fun _ => relTarget u i)))

/-- CALL (R176): the return address goes to x126:x127 with the count of its g. -/
def execCall (i : BitVec 21) (g : BitVec 4) (s : State) : Out :=
  let x : Instr := .call i g
  s.issue x (fun u =>
    let c := (s.crew u.crew).compute x u (fun _ _ _ => (nextPc u x).toNat)
    .next (s.finishBranch u x c (fun _ => relTarget u i)))

/-- An active lane's target that is not 4-byte aligned, read from slots that may be read (R175). -/
def Crew.badTarget (c : Crew) (i : Instr) (m : LaneMask) : Bool :=
  !c.held_ i m && !c.allocBad (info i) &&
  (c.active i m).any (fun l => !c.deadIn (info i).readRegs l && c.laneAddr i l % 4 != 0)

/-- A branch to the address in a register pair. -/
def branchReg (x : Instr) (s : State) : Out :=
  match s.cur with
  | none => .next s
  | some u =>
    if (illegalOf x).isNone && (s.crew u.crew).badTarget x u.lanes then .next (s.illegal u 8)
    else s.issue x (fun u =>
      let c := s.crew u.crew
      let d := c.countReads (info x).readRegs (c.active x u.lanes)
      .next (s.finishBranch u x d (fun l => BitVec.ofNat 64 (c.laneAddr x l))))

/-- BRX (R175). -/
def execBrx (a : BitVec 7) (g : BitVec 4) (s : State) : Out := branchReg (.brx a g) s

/-- RET (R176): the target is x126:x127 of the window. -/
def execRet (g : BitVec 4) (s : State) : Out := branchReg (.ret g) s

/-! ## The end of threads and crews (R177) -/

/-- Every thread has exited and the four counters stand at 0 (R177); a deferred trap that waits comes first (R348). -/
def Crew.finished (c : Crew) : Bool :=
  c.live && c.allExited && c.loads = 0 && c.stores = 0 && c.copies = 0 && c.tiles = 0 && c.egress = [] && c.deferred = []

/-- Where a crew has finished, its end is an event of this cycle. Where only a deferred trap keeps it, the trap is delivered
(log 102). -/
def State.checkEnd (s : State) (k : Nat) : State :=
  if (s.crew k).finished then s.schedule 0 95 (.crewEnd k)
  else if (s.crew k).handler && (s.crew k).allExited && (s.crew k).deferred != [] then s.schedule 1 90 (.deferredTrapDelivery k)
  else s

/-- EXIT (R177). -/
def execExit (g : BitVec 4) (s : State) : Out :=
  let x : Instr := .exit g
  s.issue x (fun u =>
    let act := (s.crew u.crew).active x u.lanes
    let s := s.finish u x (s.crew u.crew)
    let s := s.modCrew u.crew (fun c => c.onThreads act (fun _ => {}))
    .next (s.checkEnd u.crew))

/-! ## The window (R178) -/

/-- The new window base, or none where it leaves the crew's allocation (R178). -/
def Crew.newBase (c : Crew) (abs : Bool) (k : BitVec 14) : Option Nat :=
  let v : Int := if abs then k.toInt else c.wb + k.toInt
  if 0 ≤ v ∧ v < (c.nregs / 16 : Nat) then some v.toNat else none

/-- WIN in both forms: the latency of 8 holds the crew's next instruction (R30; log 13). -/
def window (x : Instr) (abs : Bool) (k : BitVec 14) (s : State) : Out :=
  s.issue x (fun u =>
    let c := s.crew u.crew
    if c.active x u.lanes = [] then .next (s.finish u x c)
    else
      match c.newBase abs k with
      | none => .next (s.takeTrap u.crew .regAlloc u.pc 0 (some u.lanes))
      | some wb => .next (s.finish u x { c with wb := wb, nextAt := s.cycle + 8 }))

/-- WIN (R178). -/
def execWin (px : Option Pfx) (i : BitVec 14) (g : BitVec 4) (s : State) : Out := window (.win px i g) false i s

/-- WIN.abs (R178). -/
def execWinAbs (px : Option Pfx) (i : BitVec 14) (g : BitVec 4) (s : State) : Out := window (.winAbs px i g) true i s

/-! ## WAIT (R166) -/

/-- WAIT: its threads are not ready until all four counters stand at or below the stated values. -/
def execWait (px : Option Pfx) (l : BitVec 6) (st : BitVec 5) (c : BitVec 6) (t : BitVec 4) (g : BitVec 4) (s : State) : Out :=
  let x : Instr := .wait px l st c t g
  s.issue x (fun u =>
    let k := s.crew u.crew
    if k.active x u.lanes = [] || (decide (k.loads ≤ l.toNat) && decide (k.stores ≤ st.toNat) &&
        decide (k.copies ≤ c.toNat) && decide (k.tiles ≤ t.toNat)) then .next (s.finish u x k)
    else .next s)

/-! ## SYS (R180) -/

/-- SYS.nop (R180). -/
def execSysNop (px : Option Pfx) (g : BitVec 4) (s : State) : Out :=
  let x : Instr := .sysNop px g
  s.issue x (fun u => .next (s.finish u x (s.crew u.crew)))

/-- SYS.conv executes as NOP; the choice of paths treats it apart (R181). -/
def execSysConv (px : Option Pfx) (g : BitVec 4) (s : State) : Out :=
  let x : Instr := .sysConv px g
  s.issue x (fun u => .next (s.finish u x (s.crew u.crew)))

/-- SYS.trap (R180): the program trap with A of the lowest active lane, whose count stays as it was (R346; log 101). -/
def execSysTrap (px : Option Pfx) (a : BitVec 7) (g : BitVec 4) (s : State) : Out :=
  let x : Instr := .sysTrap px a g
  s.issue x (fun u =>
    let c := s.crew u.crew
    match c.active x u.lanes with
    | [] => .next (s.finish u x c)
    | l :: _ =>
      let why := (c.slot (c.win a.toNat) l).val.toNat
      .next ((s.charge u x).takeTrap u.crew .program u.pc why (some u.lanes)))

/-- SYS.tret (R180, R347): illegal outside a handler. -/
def execSysTret (px : Option Pfx) (g : BitVec 4) (s : State) : Out :=
  let x : Instr := .sysTret px g
  s.issue x (fun u =>
    if (s.crew u.crew).active x u.lanes = [] then .next (s.finish u x (s.crew u.crew))
    else .next (((s.charge u x).returnTrap u.crew).checkEnd u.crew))

/-- SYS.bkpt (R180). -/
def execSysBkpt (px : Option Pfx) (g : BitVec 4) (s : State) : Out :=
  let x : Instr := .sysBkpt px g
  s.issue x (fun u =>
    let c := s.crew u.crew
    if c.active x u.lanes = [] then .next (s.finish u x c)
    else .next ((s.charge u x).takeTrap u.crew .breakpoint u.pc 0 (some u.lanes)))

/-- A crew that the active set of a core does not hold and that is ready (R18). -/
def State.readyOutside (s : State) (g : Nat) : List Nat :=
  (s.crewsOn g).filter (fun k => !(s.core g).active.any (fun p => match p.2 with | some a => a.crew = k | none => false) &&
    s.crewReady k)

/-- Entry of the active set that holds a crew. -/
def Core.entryOf (g : Core) (k : Nat) : Option Nat :=
  (g.active.find? (fun p => match p.2 with | some a => a.crew = k | none => false)).map Prod.fst

/-- A crew leaves the active set (R18, R24): one cycle for each register that its cache writes back; a free entry asks
for a fill. -/
def State.leaveActive (s : State) (k : Nat) : State :=
  let c := s.crew k
  match (s.core c.core).entryOf k with
  | none => s
  | some e =>
    let live := c.rcache.filter (fun r => (List.range 32).any (fun l => !(c.slot r l).rel))
    let s := s.modCrew k (fun c => { c with rcache := [] })
    let s := s.modCore c.core (fun g => { g with
      active := Tab.set none g.active e none
      entryBusy := Tab.set 0 g.entryBusy e (s.cycle + live.length) })
    s.schedule (max 1 live.length) 6 (.activeSetFill c.core e)

/-- SYS.yield (R180). -/
def execSysYield (px : Option Pfx) (g : BitVec 4) (s : State) : Out :=
  let x : Instr := .sysYield px g
  s.issue x (fun u =>
    let c := s.crew u.crew
    let t := s.finish u x c
    if c.active x u.lanes != [] && s.readyOutside c.core != [] then .next (t.leaveActive u.crew) else .next t)

/-- SYS.elect (R180): true in the lowest active lane. -/
def execSysElect (px : Option Pfx) (p : BitVec 3) (g : BitVec 4) (s : State) : Out :=
  aluPair (.sysElect px p g) (fun c u l _ => (c.active (.sysElect px p g) u.lanes).head? = some l) s

/-- SYS.rdtime (R180): both halves of the count in one step. -/
def execSysRdtime (px : Option Pfx) (d : BitVec 7) (g : BitVec 4) (s : State) : Out :=
  aluAt (.sysRdtime px d g) (fun _ u _ _ _ => s.time (crewSett u.crew)) s

/-- SYS.sleep (R180): each active thread sleeps N(A) cycles and up to 64 more, a free number (log 6). -/
def execSysSleep (px : Option Pfx) (a : BitVec 7) (g : BitVec 4) (s : State) : Out :=
  let x : Instr := .sysSleep px a g
  s.issue x (fun u =>
    let c := s.crew u.crew
    let act := c.active x u.lanes
    let s1 := s.finish u x (c.countReads (info x).readRegs act)
    let (d, s1) := s1.draw
    .next (act.foldl (fun s l =>
      let n := (c.slot (c.win a.toNat) l).val.toNat + (Config.sleepExtra d).toNat % 65
      (s.modCrew u.crew (fun c => c.modThread l (fun t =>
        { t with pc := u.pc, st := .sleeping (s.cycle + n) n (nextPc u x) }))).schedule n 70 (.sleepExpiry u.crew l)) s1))

/-- Mire chunks of 256 bytes that a sett's sibling records take (R289): siblings beyond the third, 15 to a chunk, and
the records beyond the 209,715 of the store, each with a chunk and an index entry of 16 bytes. -/
def Sett.mireChunks (t : Sett) : Nat :=
  let sib := t.cells.foldl (fun n p => match p.2 with | some x => n + (x.sibs.length - 3 + 14) / 15 | none => n) 0
  let extra := t.cells.length - 209715
  sib + extra + (extra + 15) / 16

/-- The value of SYS.mstat's selector (R185). -/
def State.mstat (s : State) (k selector : Nat) : Nat :=
  let c := s.crew k
  let g := s.core c.core
  let t := s.sett (crewSett k)
  let leaseBit (f : Lease → Bool) : Nat :=
    (c.leases.filter (fun p => match p.2 with | some x => f x | none => false)).foldl (fun n p => n + 2 ^ p.1) 0
  match selector with
  | 0 => c.egress.length
  | 1 => g.copies.length
  | 2 => c.tlbinv.toNat
  | 3 => leaseBit (fun _ => true) + 16 * leaseBit Lease.revoked
  | 4 => (t.base 7 - 256 * t.mireChunks) / 4096
  | 5 => g.post.length
  | 6 => (if s.gateBit c.core then 1 else 0) + (if t.maintenance then 2 else 0)
  | 7 => s.mapgen
  | _ => 2 ^ 32 - 1

/-- SYS.mstat (R185). -/
def execSysMstat (px : Option Pfx) (d : BitVec 7) (a : BitVec 7) (g : BitVec 4) (s : State) : Out :=
  aluAt (.sysMstat px d a g) (fun _ u _ _ v => s.mstat u.crew (v 0)) s

end Sys2Proof.Machine
end

