-- ==== Sys2Proof/Machine/Barrier.lean ====
section
/-! DEFINITION. Barrier objects (spec/10, R255 to R260): layout, updates, completion, waiters, waking of cores. -/

namespace Sys2Proof.Machine

/-- A barrier object (R255). -/
structure BarObj where
  phase : Nat
  sat : Bool
  broken : Bool
  exparv : Nat
  arv : Nat
  expbytes : Nat
  landed : Nat
deriving DecidableEq, Repr

def BarObj.ofNat (v : Nat) : BarObj :=
  { phase := bits v 127 112, sat := v.testBit 105, broken := v.testBit 104, exparv := bits v 103 88, arv := bits v 87 72,
    expbytes := bits v 71 36, landed := bits v 35 0 }

def BarObj.toNat (o : BarObj) : Nat :=
  o.phase % 2 ^ 16 * 2 ^ 112 + (if o.sat then 2 ^ 105 else 0) + (if o.broken then 2 ^ 104 else 0) +
  o.exparv % 2 ^ 16 * 2 ^ 88 + o.arv % 2 ^ 16 * 2 ^ 72 + o.expbytes % 2 ^ 36 * 2 ^ 36 + o.landed % 2 ^ 36

/-- Field maxima (R256). -/
def arvMax : Nat := 2 ^ 16 - 1
def byteMax : Nat := 2 ^ 36 - 1

/-- The completion test (R257): one update completes at most one phase. -/
def BarObj.test (o : BarObj) : BarObj :=
  if o.exparv ≤ o.arv ∧ o.expbytes ≤ o.landed then
    { o with arv := o.arv - o.exparv, landed := o.landed - o.expbytes, phase := (o.phase + 1) % 2 ^ 16 }
  else o

/-- An update of an object (R161, R256). -/
inductive BarUpdate where
  | init (arrivals bytes : Nat)
  | arrive
  | expect (n : Nat)
  | land (n : Nat)
  | break_
deriving DecidableEq, Repr

/-- A count stops at its field maximum, which sets sat (R256). -/
def capped (m v : Nat) (sat : Bool) : Nat × Bool := if m < v then (m, true) else (v, sat)

/-- One update with the completion test that follows it, other than after BINIT and the setting of broken (R257, R258). -/
def BarObj.update (o : BarObj) : BarUpdate → BarObj
  | .init a b =>
    { phase := 0, sat := decide (arvMax < a) || decide (byteMax < b), broken := false, exparv := min a arvMax, arv := 0,
      expbytes := min b byteMax, landed := 0 }
  | .arrive => let (v, t) := capped arvMax (o.arv + 1) o.sat
               BarObj.test { o with arv := v, sat := t }
  | .expect n => let (v, t) := capped byteMax (o.expbytes + n) o.sat
                 BarObj.test { o with expbytes := v, sat := t }
  | .land n => let (v, t) := capped byteMax (o.landed + n) o.sat
               BarObj.test { o with landed := v, sat := t }
  | .break_ => { o with broken := true }

/-- Phase p of an object has ended, or the object is broken (R164). -/
def BarObj.ended (o : BarObj) (p : Nat) : Bool :=
  let d := (o.phase + 2 ^ 16 - p % 2 ^ 16) % 2 ^ 16
  o.broken || (decide (1 ≤ d) && decide (d ≤ 32767))

/-! ## Objects in scratchpads -/

/-- Where an object's address lies: none outside the cluster's scratchpads; `some none` in a gap (R161, R164). -/
def State.objectAt (s : State) (k va : Nat) : Option (Option (Nat × Nat)) :=
  let off := va % 2 ^ 24
  let a := off / 2 ^ 21
  if !isNear va || a = 0 || a = 2 || a = 3 then none
  else
    let ps := (List.range 16).map (fun j => s.nearPlace k (s.crew k).core (off + j))
    match ps.head? with
    | some (some (.pad b o)) => if ps.all (fun p => match p with | some (.pad _ _) => true | _ => false) then some (some (b, o)) else some none
    | _ => some none

def State.barrier (s : State) (b o : Nat) : BarObj := BarObj.ofNat (Memory.readN (s.block b).pad o 16)

/-- The bytes of an object; `own` marks an update that the owner core could undo (R418). -/
def State.setBarrier (s : State) (b o : Nat) (x : BarObj) (own : Bool) : State :=
  s.modBlock b (fun y => { y with
    pad := Memory.writeN y.pad o 16 x.toNat
    young := if own then (s.cycle, o, 16) :: y.young.filter (fun z => decide (s.cycle < z.1 + 257)) else y.young })

/-! ## Waking (R262) -/

/-- Waiters on an object: crew and lane. -/
def State.waitersOn (s : State) (b o : Nat) : List (Nat × Nat) :=
  (s.gangCrews (blockSett b) (blockRec b)).flatMap (fun k =>
    ((s.crew k).threads.filter (fun p => match p.2.st with
      | .waiting w => s.objectAt k w.obj = some (some (b, o))
      | _ => false)).map (fun p => (k, p.1)))

/-- The waiters of an object whose phase ended resume within 4 cycles on its own core and 48 elsewhere (R259). -/
def State.notify (s : State) (b o : Nat) : State :=
  let x := s.barrier b o
  forEach (s.waitersOn b o) s (fun w t =>
    match ((t.crew w.1).thread w.2).st with
    | .waiting y =>
      if x.ended y.phase then
        (t.wakeCore (t.crew w.1).core).schedule (if (t.crew w.1).core = (t.block b).core then 4 else 48) 60
          (.waiterResume w.1 w.2)
      else t
    | _ => t)

/-- The gang barrier's phase completions step the gang generation (R287): ganggen stops at 255, the frontiers and
epochs of the gang's crews start again. -/
def State.gangStep (s : State) (b o : Nat) : State :=
  let x := s.record (blockSett b) (blockRec b)
  if blockId b = 0 && x.gbar != 0xFFFF && 16 * x.gbar = o then
    let s := s.modRecord (blockSett b) (blockRec b) (fun y => { y with ganggen := min 255 (y.ganggen + 1) })
    let gen := min 255 (x.ganggen + 1)
    forEach (s.gangCrews (blockSett b) (blockRec b)) s (fun k t => t.modCrew k (fun c => { c with
      epoch := 0, seq := 0, frontier := { c.frontier with ganggen := gen, pairs := [] } }))
  else s

/-- One update of an object with everything that follows from it (R257, R259). -/
def State.updateBarrier (s : State) (b o : Nat) (u : BarUpdate) (own : Bool) : State :=
  let old := s.barrier b o
  let new := old.update u
  let s := s.setBarrier b o new own
  let s := if new.phase != old.phase && (match u with | .init _ _ => false | _ => true) then s.gangStep b o else s
  s.notify b o

/-! ## L1 (R146, R277) -/

/-- Words of a line that a core has registered (R277); peer sectors count as registered (R361). -/
def State.registeredBy (s : State) (g line w : Nat) : Bool :=
  Tab.get 0 (s.sett (coreSett g)).registered (line % 2 ^ 40 * 32 + w) = g + 1

/-- Line number of a byte of a sett's HBM: the memory's sett above the address's bits 36:7. -/
def lineOf (sett addr : Nat) : Nat := sett * 2 ^ 40 + addr / 128

/-- Lines of the own sett's memory lose their words that the core has not registered; empty lines leave. -/
def State.selfInvalidate (s : State) (g : Nat) : State :=
  s.modCore g (fun c => { c with l1 := (c.l1.map (fun x =>
    if x.line / 2 ^ 40 != coreSett g then x
    else { x with words := x.words.filter (fun w => s.registeredBy g x.line w.1) })).filter (fun x => x.words != []) })

end Sys2Proof.Machine
end

