-- ==== Sys2Proof/Machine/Coherence.lean ====
section
/-! DEFINITION. Coherence across setts (spec/16, R361 to R369): L1 lines, peer sectors, the home directory and its
messages. A sector is named sett·2^31 + address ÷ 64; a node is 1 for the host, 2 + s for the port of sett s, 16 + k
for link agent k. -/

namespace Sys2Proof.Machine

/-! ## Release tags (R285) -/

/-- Home slice of an address: one of the 64, by the number of its 256-byte line (log 22). -/
def homeSlice (addr : Nat) : Nat := addr / 256 % 64

/-- Release-tag set of a word (R285): each home slice has 1,024. -/
def tagSet (addr : Nat) : Nat := homeSlice addr * 1024 + addr / 4 % 1024

/-- Tag of a word. -/
def Sett.tagOf (t : Sett) (addr : Nat) : Option (Nat × Nat) :=
  ((Tab.get [] t.tags (tagSet addr)).find? (fun x => x.1 = addr / 4)).map Prod.snd

/-- Tags of the words of a range: (word of the range, identity, epoch). -/
def Sett.tagsIn (t : Sett) (addr n : Nat) : List (Nat × Nat × Nat) :=
  (List.range ((addr % 4 + n + 3) / 4)).filterMap (fun w => (t.tagOf (addr / 4 * 4 + 4 * w)).map (fun p => (w, p)))

/-! ## L1 lines (R254) -/

def sectorOf (sett addr : Nat) : Nat := sett * 2 ^ 31 + addr / 64
def sectorSett (x : Nat) : Nat := x / 2 ^ 31
def sectorAddr (x : Nat) : Nat := x % 2 ^ 31 * 64
/-- L1 line of a sector. -/
def sectorLine (x : Nat) : Nat := lineOf (sectorSett x) (sectorAddr x)

/-- Sets of an L1 partition (R254). -/
def Core.l1Sets (c : Core) : Nat := c.l1Size

def Core.line (c : Core) (n : Nat) : Option L1Line := c.l1.find? (fun x => x.line = n)

/-- A word that L1 holds. -/
def Core.l1Word (c : Core) (sett addr : Nat) : Option Word :=
  match c.line (lineOf sett addr) with
  | none => none
  | some x => Tab.get none x.words (addr % 128 / 4)

/-- Tag that a word of L1 had at its home. -/
def Core.l1Tag (c : Core) (sett addr : Nat) : Option (Nat × Nat) :=
  match c.line (lineOf sett addr) with
  | none => none
  | some x => Tab.get none x.tags (addr % 128 / 4)

/-- The L1 copy of a word's sector is poisoned (R421). -/
def Core.l1Bad (c : Core) (sett addr : Nat) : Bool :=
  match c.line (lineOf sett addr) with
  | none => false
  | some x => x.bad.contains (addr % 128 / 64)

/-- Mark sectors of a line, 0 or 1, or take their marks away. -/
def Core.l1Mark (c : Core) (n : Nat) (zs : List Nat) (bad : Bool) : Core :=
  { c with l1 := c.l1.map (fun x =>
      if x.line = n then { x with bad := (if bad then zs else []) ++ x.bad.filter (fun z => !zs.contains z) } else x) }

/-- Every word of a range is present. -/
def Core.l1Has (c : Core) (sett addr n : Nat) : Bool :=
  (List.range ((addr % 4 + n + 3) / 4)).all (fun w => (c.l1Word sett (addr / 4 * 4 + 4 * w)).isSome)

/-- n bytes read from L1 words. -/
def Core.l1Read (c : Core) (sett addr : Nat) : Nat → Nat
  | 0 => 0
  | n + 1 => (((c.l1Word sett addr).getD 0).toNat / 2 ^ (8 * (addr % 4))) % 256 + 256 * Core.l1Read c sett (addr + 1) n

/-- Replacement position after a hit, by hint (R254). -/
def Core.l1Touch (c : Core) (n hint : Nat) : Core :=
  match c.line n with
  | none => c
  | some x =>
    let rest := c.l1.filter (fun y => y.line != n)
    match hint with
    | 0 => { c with l1 := x :: rest }
    | 2 => c
    | _ => { c with l1 := rest ++ [x] }

/-- Change a line's words. -/
def Core.l1Map (c : Core) (n : Nat) (f : Tab (Option Word) → Tab (Option Word)) : Core :=
  { c with l1 := (c.l1.map (fun x => if x.line = n then { x with words := f x.words } else x)).filter (fun x => x.words != []) }

/-- Drop the words of a range. -/
def Core.l1Drop (c : Core) (sett addr n : Nat) : Core :=
  (List.range ((addr % 4 + n + 3) / 4)).foldl (fun c w =>
    let a := addr / 4 * 4 + 4 * w
    c.l1Map (lineOf sett a) (fun t => Tab.set none t (a % 128 / 4) none)) c

/-- Bytes written into words that are present, or into whole words where `alloc` (R254). -/
def Core.l1Write (c : Core) (sett addr n v : Nat) (alloc : Bool) : Core :=
  (List.range ((addr % 4 + n + 3) / 4)).foldl (fun c w =>
    let a := addr / 4 * 4 + 4 * w
    let lo := addr - a
    let hi := min 4 (addr + n - a)
    let old := c.l1Word sett a
    let part := v / 2 ^ (8 * (a + lo - addr)) % 2 ^ (8 * (hi - lo))
    let new : Nat := putBits (old.getD 0).toNat (8 * hi - 1) (8 * lo) part
    if old.isSome || (alloc && lo = 0 && hi = 4) then
      c.l1Map (lineOf sett a) (fun t => Tab.set none t (a % 128 / 4) (some (BitVec.ofNat 32 new)))
    else c) c

/-- A line leaves L1 (R151, R254, R366): its registered words are performed at the home, which holds their values
already, and lose their registration; peer sectors in S send an eviction notice. -/
def State.l1Evict (s : State) (g line : Nat) : State :=
  let sett := line / 2 ^ 40
  let addr := line % 2 ^ 40 * 128
  let s :=
    if sett = coreSett g then
      s.modSett sett (fun t => { t with registered := t.registered.filter (fun p =>
        !(p.2 = g + 1 && decide (addr / 4 ≤ p.1) && decide (p.1 < addr / 4 + 32))) })
    else
      forEach [sectorOf sett addr, sectorOf sett (addr + 64)] s (fun x t =>
        if Tab.get .i (t.core g).sectors x = .s then
          (t.modCore g (fun c => { c with sectors := Tab.set .i c.sectors x .si })).schedule (75 + 60) 20 (.evict sett x g)
        else t)
  s.modCore g (fun c => { c with l1 := c.l1.filter (fun x => x.line != line) })

/-- A peer sector of a line is between states, so the line stays (R366). -/
def Core.lineBusy (c : Core) (line : Nat) : Bool :=
  let x := sectorOf (line / 2 ^ 40) (line % 2 ^ 40 * 128)
  [x, x + 1].any (fun y => match Tab.get .i c.sectors y with | .is | .isi | .si => true | _ => false)

/-- Room for a line in its set of 8 ways; the least recently used line that may leave is evicted. -/
def State.l1Place (s : State) (g line : Nat) (lru : Bool) : State :=
  let c := s.core g
  if (c.line line).isSome || c.l1Sets = 0 then s
  else
    let mine := c.l1.filter (fun x => x.line % c.l1Sets = line % c.l1Sets)
    let s :=
      if mine.length < 8 then s
      else match (mine.filter (fun x => !c.lineBusy x.line)).getLast? with
        | some x => s.l1Evict g x.line
        | none => s
    s.modCore g (fun c => if lru then { c with l1 := c.l1 ++ [{ line := line }] } else { c with l1 := { line := line } :: c.l1 })

/-- Drop the line again if nothing was put into it. -/
def State.l1Tidy (s : State) (g : Nat) : State := s.modCore g (fun c => { c with l1 := c.l1.filter (fun x => x.words != []) })

/-- Words that stores of the core on their way to the home will write: L1 keeps them on a fill. -/
def State.ownPending (s : State) (g sett addr : Nat) : Bool :=
  s.reqs.any (fun p => match p.2 with
    | none => false
    | some r => (s.crew r.crew).core = g && r.kind.writes && r.lanes.any (fun x => !x.done && (match x.target with
        | some t => (match t.place with | .hbm q a => q = sett && decide (a < addr + 4) && decide (addr < a + r.size) | _ => false)
        | none => false)))

/-- A word enters a line, with the tag that it has at its home; the line stays even where it was empty. -/
def Core.l1Put (c : Core) (n w : Nat) (v : Word) (tag : Option (Nat × Nat)) : Core :=
  { c with l1 := c.l1.map (fun x =>
      if x.line = n then { x with words := Tab.set none x.words w (some v), tags := Tab.set none x.tags w tag } else x) }

/-- The writer's copies of the words of a performed store take the bytes that the home holds, once no other store of the core to
the word is on its way: a store of part of a word onto a stale copy leaves no stale byte in a registered word (R275, R277;
log 105). -/
def State.l1Settle (s : State) (g sett addr n : Nat) : State :=
  s.modCore g (fun c => (List.range ((addr % 4 + n + 3) / 4)).foldl (fun c w =>
    let a := addr / 4 * 4 + 4 * w
    if (c.l1Word sett a).isNone || s.ownPending g sett a then c
    else c.l1Put (lineOf sett a) (a % 128 / 4) (BitVec.ofNat 32 (s.hbmRead sett a 4)) ((s.sett sett).tagOf a)) c)

/-- The word of an 8- or 16-bit store that missed enters L1 when the home has merged it (R144, R254; log 108). -/
def State.l1Merge (s : State) (g sett addr : Nat) (lru : Bool) : State :=
  let a := addr / 4 * 4
  if s.ownPending g sett a then s
  else (s.l1Place g (lineOf sett a) lru).modCore g (fun c =>
    c.l1Put (lineOf sett a) (a % 128 / 4) (BitVec.ofNat 32 (s.hbmRead sett a 4)) ((s.sett sett).tagOf a))

/-- Fill n bytes, a line or one peer sector, from a number that holds them and their tags; words with stores of the core on their way
keep what L1 has. Poison comes with its sector (R422). -/
def State.l1Fill (s : State) (g sett addr n v : Nat) (tags : List (Nat × Nat × Nat)) (lru : Bool) : State :=
  let line := lineOf sett addr
  let base := addr / n * n
  let s := s.l1Place g line lru
  let s := (s.modCore g (fun c => (List.range (n / 4)).foldl (fun c w =>
    if s.ownPending g sett (base + 4 * w) then c
    else c.l1Put line ((base + 4 * w) % 128 / 4) (BitVec.ofNat 32 (v / 2 ^ (32 * w)))
      ((tags.find? (fun p => p.1 = w)).map Prod.snd)) c)).l1Tidy g
  let zs := (sectorsOf (base % 128) n)
  let bad := zs.filter (fun z => Tab.get false s.poison (sectorOf sett (base / 128 * 128 + 64 * z)))
  s.modCore g (fun c => (c.l1Mark line zs false).l1Mark line bad true)

end Sys2Proof.Machine
end

