-- ==== Sys2Proof/Machine/Home.lean ====
section
/-! DEFINITION. The home slice of a sett: keep-siblings cells (R283 to R294), release tags and frontiers (R285, R286),
registration (R277), the directory's part in reads and writes (R361 to R369), and one write or read performed there. -/

namespace Sys2Proof.Machine

/-! ## Stamps (R284, R288) -/

/-- A stamp as its 96 bits. -/
def Stamp.word (x : Stamp) : Nat :=
  x.devgen * 2 ^ 80 + x.src * 2 ^ 78 + x.sett * 2 ^ 75 + x.gang * 2 ^ 64 + x.ganggen * 2 ^ 56 + x.block * 2 ^ 54 +
  x.crew * 2 ^ 49 + x.epoch * 2 ^ 33 + x.seq * 2 ^ 25 + x.lane * 2 ^ 20 + (if x.sat then 2 ^ 19 else 0) +
  (if x.rc then 1 else 0)

/-- Position in stamp order: the fields from devgen to lane (R289). -/
def Stamp.key (x : Stamp) : Nat := x.word / 2 ^ 20

/-- The 21-bit identity of the crew that wrote (R284). -/
def Stamp.ident (x : Stamp) : Nat := x.sett * 2 ^ 18 + x.gang * 128 + x.block * 32 + x.crew

def Stamp.sameAgent (n o : Stamp) : Bool :=
  n.src = o.src && n.sett = o.sett && n.gang = o.gang && n.block = o.block && n.crew = o.crew

/-- N dominates O, for a home whose current generation is `cur` and with N's frontier (R288). -/
def Stamp.dominates (n o : Stamp) (frontier : List (Nat × Nat)) (cur : Nat) : Bool :=
  let crews := decide (n.src < 2)
  (n.devgen = cur && o.devgen != cur) ||
  (crews && n.src = o.src && n.sett = o.sett && n.gang = o.gang && n.devgen = o.devgen && !n.sat && !o.sat &&
    decide (o.ganggen < n.ganggen)) ||
  (n.sameAgent o && n.devgen = o.devgen && n.ganggen = o.ganggen && !n.sat && !o.sat &&
    (decide (o.epoch < n.epoch) || (n.epoch = o.epoch && decide (o.seq < n.seq)))) ||
  (crews && decide (o.src < 2) && frontier.any (fun p => p.1 = o.ident && decide (o.epoch < p.2)))

/-! ## Epochs and frontiers (R285, R286) -/

/-- The epoch and sequence that an instruction takes: a release raises the epoch, another stamped instruction the
sequence. -/
def Crew.bump (c : Crew) (release : Bool) : Crew :=
  if release && decide (c.epoch < 65535) then { c with epoch := c.epoch + 1, seq := 0 }
  else if c.seq < 255 then { c with seq := c.seq + 1 }
  else if c.epoch < 65535 then { c with epoch := c.epoch + 1, seq := 0 }
  else c

/-- A release that takes no stamp raises the epoch alone. -/
def Crew.bumpRelease (c : Crew) : Crew :=
  if c.epoch < 65535 then { c with epoch := c.epoch + 1, seq := 0 } else c

/-- The stamp that a crew's write carries, before the home adds its lane (R284). -/
def State.stampOf (s : State) (k : Nat) (home : Nat) : Stamp :=
  let c := s.crew k
  let x := s.record (crewSett k) (crewRec k)
  { devgen := (s.sett (crewSett k)).devgen, src := if crewSett k = home then 0 else 1, sett := crewSett k,
    gang := crewRec k, ganggen := x.ganggen, block := blockId (crewBlock k), crew := k % 32, epoch := c.epoch,
    seq := c.seq, sat := decide (65535 ≤ c.epoch) || decide (255 ≤ x.ganggen) }

/-- The stamp of a lane's write as its home sees it (R284): of a crew of its own sett or of another. -/
def Stamp.at (x : Stamp) (own home lane : Nat) : Stamp := { x with src := if own = home then 0 else 1, lane := lane }

/-- The next stamp of a writer that is no crew: agent 0 is the host, 1 + k link k; it is formed where the write enters the home sett,
with the home's generation (R284, R285). -/
def State.agentStamp (s : State) (sett agent : Nat) : Stamp × State :=
  let t := s.sett sett
  let x := Tab.get (0, 0) t.agents agent
  let y := if x.2 < 255 then (x.1, x.2 + 1) else if x.1 < 65535 then (x.1 + 1, 0) else x
  ({ devgen := t.devgen, src := if agent = 0 then 3 else 2, gang := agent - 1, epoch := y.1, seq := y.2, sat := decide (65535 ≤ y.1) },
   s.setSett sett { t with agents := Tab.set (0, 0) t.agents agent y })

/-- Add a pair to a frontier: the larger epoch of one crew, newest first, at most 16 pairs (R286). -/
def Frontier.add (f : Frontier) (p : Nat × Nat) : Frontier :=
  let e := match f.pairs.find? (fun q => q.1 = p.1) with | some q => max q.2 p.2 | none => p.2
  { f with pairs := ((p.1, e) :: f.pairs.filter (fun q => q.1 != p.1)).take 16 }

/-- A release write tags its word; the way tagged longest ago leaves a full set (R285). -/
def State.tagWord (s : State) (sett addr ident epoch : Nat) : State :=
  s.modSett sett (fun t => { t with tags := Tab.modify [] t.tags (tagSet addr) (fun l =>
    ((addr / 4, ident, epoch) :: l.filter (fun x => x.1 != addr / 4)).take 8) })

/-- A release write tags every word that it writes. -/
def State.tagWords (s : State) (sett addr n ident epoch : Nat) : State :=
  (List.range ((addr % 4 + n + 3) / 4)).foldl (fun s w => s.tagWord sett (addr / 4 * 4 + 4 * w) ident epoch) s

/-- A release write to words of a scratchpad tags them in a store of the core that holds it, of the same 1,024 sets of 8 ways by
offset bits 11:2 (R285, log 109). -/
def State.tagPad (s : State) (p : Option Place) (n ident epoch : Nat) : State :=
  match p with
  | some (.pad b o) => s.modBlock b (fun y => { y with tags := (List.range ((n + 3) / 4)).foldl (fun t w =>
      let a := o / 4 + w
      Tab.modify [] t (a % 1024) (fun l => ((a, ident, epoch) :: l.filter (fun x => x.1 != a)).take 8)) y.tags })
  | _ => s

/-- Tags of the words of a scratchpad access. -/
def State.padTags (s : State) (p : Option Place) (n : Nat) : List (Nat × Nat) :=
  match p with
  | some (.pad b o) => (List.range ((n + 3) / 4)).filterMap (fun w =>
      let a := o / 4 + w
      ((Tab.get [] (s.block b).tags (a % 1024)).find? (fun x => x.1 = a)).map Prod.snd)
  | _ => []

/-! ## Keep-siblings cells (R288 to R294) -/

def Sett.cell (t : Sett) (addr : Nat) : Option CellRec := Tab.get none t.cells (addr / 4)

/-- Values of a cell in stamp order; the primary's value stands in memory. -/
def State.cellValues (s : State) (sett addr : Nat) : List (Option Stamp × Word) :=
  let prim := BitVec.ofNat 32 (s.hbmRead sett addr 4)
  match (s.sett sett).cell addr with
  | none => [(none, prim)]
  | some x => (some x.pstamp, prim) :: x.sibs.map (fun v => (some v.1, v.2))

/-- Siblings of a cell (R147). -/
def State.siblings (s : State) (sett addr : Nat) : Nat :=
  match (s.sett sett).cell addr with | none => 0 | some x => x.sibs.length

/-- Insert into stamp order, after equal stamps. -/
def insertStamp (a : Stamp × Word) (l : List (Stamp × Word)) : List (Stamp × Word) :=
  insertBy (fun x y => decide (x.1.key ≤ y.1.key)) a l

/-- The Mire has room for a sett's records. -/
def Sett.mireFits (t : Sett) : Bool := decide (256 * t.mireChunks ≤ t.base 7)

/-- Outcome of a write to a cell. -/
inductive CellOutcome where
  | written | discarded | full
deriving DecidableEq, Repr

/-- Put values into a cell: the first becomes the primary. -/
def State.putCell (s : State) (sett addr key : Nat) (vals : List (Stamp × Word)) (launch : Option Nat) : State :=
  match vals with
  | [] => s
  | p :: rest =>
    let t := s.sett sett
    let x : CellRec := { gen := t.devgen, pstamp := p.1, sibs := rest }
    (s.setSett sett { t with cells := Tab.set none t.cells (addr / 4) (some x) }).hbmWriteKey sett addr 4 key p.2.toNat launch

/-- The step of R288 on one cell. -/
def State.cellWrite (s : State) (sett addr key : Nat) (v : Word) (n : Stamp) (frontier : List (Nat × Nat))
    (launch : Option Nat) : CellOutcome × State :=
  let t := s.sett sett
  let fresh (vals : List (Stamp × Word)) : CellOutcome × State :=
    let s' := s.putCell sett addr key vals launch
    if 256 < vals.length || !(s'.sett sett).mireFits then (.full, s) else (.written, s')
  match t.cell addr with
  | none => fresh [(n, v)]
  | some x =>
    if x.gen != t.devgen then fresh [(n, v)]
    else
      let vals := (x.pstamp, BitVec.ofNat 32 (s.hbmRead sett addr 4)) :: x.sibs
      if vals.any (fun o => o.1.dominates n [] t.devgen) then (.discarded, s)
      else fresh (insertStamp (n, v) (vals.filter (fun o => !n.dominates o.1 frontier t.devgen)))

/-- The device generation of a sett steps (R287): past records without siblings are freed (R289), every record's
gang generation returns to 0, frontiers and epochs of the sett's crews start again. A step from 65,535 rebases. -/
def State.devgenStep (s : State) (sett : Nat) : State :=
  let t := s.sett sett
  let gen := if t.devgen = 65535 then 1 else t.devgen + 1
  let zero (x : Stamp) : Stamp := if t.devgen = 65535 then { x with devgen := 0 } else x
  let keep (x : CellRec) : CellRec :=
    { gen := if t.devgen = 65535 then 0 else x.gen, pstamp := zero x.pstamp, sibs := x.sibs.map (fun v => (zero v.1, v.2)) }
  let s := s.setSett sett { t with
    devgen := gen
    agents := []
    cells := (t.cells.filter (fun p => match p.2 with | some x => x.sibs != [] | none => false)).map
      (fun p => (p.1, p.2.map keep))
    records := (t.records.map (fun p => (p.1, { p.2 with ganggen := 0, reuse := false }))).filter
      (fun p => p.2 != LaunchRec.init) }
  forEach ((s.crews.filter (fun p => crewSett p.1 = sett && p.2.live)).map Prod.fst) s (fun k u => u.modCrew k (fun c =>
    { c with epoch := 0, seq := 0, frontier := { devgen := gen, ganggen := 0, pairs := [] } }))

/-! ## The directory (R362, R363) -/

/-- Sectors of a range of a sett's memory. -/
def sectorsIn (sett addr n : Nat) : List Nat :=
  (List.range ((addr + n + 63) / 64 - addr / 64)).map (fun j => sett * 2 ^ 31 + addr / 64 + j)

/-- Directory key of a sector: its 256-byte line. -/
def dirKey (x : Nat) : Nat := x % 2 ^ 31 / 4

def State.dirOf (s : State) (x : Nat) : DirEntry := Tab.get DirEntry.init (s.sett (sectorSett x)).dir (dirKey x)

/-- State of a sector: 0 I, 1 S, 2 O, 3 OW. -/
def State.sectorState (s : State) (x : Nat) : Nat := (s.dirOf x).sst[x % 4]?.getD 0

/-- Store an entry; one whose sectors are all I, and that no request waits in, is freed (R362). -/
def State.setDir (s : State) (x : Nat) (e : DirEntry) : State :=
  let e := if e.sst.all (· = 0) && e.queue = [] then DirEntry.init else { e with used := s.cycle }
  s.modSett (sectorSett x) (fun t => { t with
    dir := Tab.set DirEntry.init t.dir (dirKey x) e
    victims := if e = DirEntry.init then t.victims.filter (· != dirKey x) else t.victims })

/-- An entry with a sector's state changed. -/
def DirEntry.withState (e : DirEntry) (i v : Nat) : DirEntry := { e with sst := e.sst.set i v }

/-- Groups of 16 global cores that a coarse entry names (R362). -/
def DirEntry.names (e : DirEntry) : List Nat :=
  if e.coarse then ((List.range 64).filter (fun j => e.groups.testBit j)).flatMap (fun j => (List.range 16).map (16 * j + ·))
  else e.ptrs

/-- A new sharer enters: a free pointer, or the coarse form from the fifth on (R363). -/
def DirEntry.addSharer (e : DirEntry) (c : Nat) : DirEntry :=
  if e.coarse then { e with groups := e.groups ||| 2 ^ (c / 16) }
  else if e.ptrs.contains c then e
  else if e.ptrs.length < 4 then { e with ptrs := e.ptrs ++ [c] }
  else { e with coarse := true, ptrs := [], groups := (c :: e.ptrs).foldl (fun g p => g ||| 2 ^ (p / 16)) 0 }

/-- An eviction notice takes a pointer away; the last one of an entry without owner frees it (R363). -/
def DirEntry.dropSharer (e : DirEntry) (c : Nat) : DirEntry :=
  if e.coarse then e
  else
    let ps := e.ptrs.filter (· != c)
    if ps = [] && e.own = 0 then { DirEntry.init with queue := e.queue } else { e with ptrs := ps }

/-- The sharers are cleared once no sector of the line remains in S (R365). -/
def DirEntry.clearIdle (e : DirEntry) : DirEntry :=
  if e.sst.any (· = 1) then e else { e with coarse := false, ptrs := [], groups := 0 }

/-- An entry's 128 bits, for the line of a directory key (R362). -/
def DirEntry.word (e : DirEntry) (key : Nat) : Nat :=
  key % 2 ^ 44 * 2 ^ 84 + (List.range 4).foldr (fun i v => e.sst[i]?.getD 0 % 4 * 2 ^ (76 + 2 * i) + v) 0 +
  (if e.coarse then 2 ^ 75 + e.groups % 2 ^ 64
   else e.ptrs.length % 8 * 2 ^ 72 + (List.range e.ptrs.length).foldr (fun k v => e.ptrs[k]?.getD 0 % 2 ^ 10 * 2 ^ (10 * k) + v) 0) +
  e.own % 16 * 2 ^ 68

/-- What an Inv names at a home of sett h: cores of other setts, and link agents (R364). -/
def invNames (h : Nat) (names : List Nat) : List Nat := names.filter (fun c => coreSett c != h || decide (c % 128 < 18))

/-- Free entry of the ack collector of a sector's home slice, one of 256 (R368). -/
def Sett.freeCollector (t : Sett) (x : Nat) : Option Nat :=
  ((List.range 256).map (256 * homeSlice (sectorAddr x) + ·)).find? (fun c => (Tab.get none t.collectors c).isNone)

/-- Delay of a message from a home to the cores of a sett: `d` cycles, and no less than the messages that the home sent
there before (R364). -/
def State.channel (s : State) (h t d : Nat) : Nat :=
  s.agenda.foldl (fun m e => match e.ev with
    | .inv node x _ => if sectorSett x = h && node = 2 + t then max m (e.due - s.cycle) else m
    | .data c x => if sectorSett x = h && coreSett c = t then max m (e.due - s.cycle) else m
    | .evack c x => if sectorSett x = h && coreSett c = t then max m (e.due - s.cycle) else m
    | _ => m) d

/-- Send the Invs for sectors of one line to its sharers and open a collector entry (R364, R368); none where the
collector is full. -/
def State.sendInvs (s : State) (x : Nat) (sectors : List Nat) (req : Option Nat) : Option State :=
  let h := sectorSett x
  let names := invNames h (s.dirOf x).names
  if names = [] then some s
  else
    match (s.sett h).freeCollector x with
    | none => none
    | some c =>
      let links := names.filter (fun n => coreSett n = h)
      let k : Collector := { expected := names.length, got := 0, names := names, sectors := sectors, req := req }
      let s := s.modSett h (fun t => { t with collectors := Tab.set none t.collectors c (some k) })
      let setts := ((List.range 8).filter (fun t => t != h && names.any (fun n => coreSett n = t)))
      let s := forEach setts s (fun t u => u.schedule (u.channel h t 60) 16 (.inv (2 + t) x c))
      let s := forEach links s (fun n u => u.schedule 60 16 (.inv (16 + n % 128) x c))
      some (match req with
        | some r => s.modReq r (fun q => { q with awaiting := true })
        | none => s)

/-- Begin to take sectors back from their owner (R367, R375): they go to OW and the owner is asked. -/
def State.recall (s : State) (xs : List Nat) : State :=
  forEach (xs.filter (fun x => s.sectorState x = 2)) s (fun x t =>
    let e := t.dirOf x
    (t.setDir x (e.withState (x % 4) 3)).schedule 75 17 (.fwdOwn e.own x 0))

/-- A read or write at the home of bytes that an owner holds waits while they are recalled (log 17). -/
def State.homeReady (s : State) (sett addr n : Nat) : Bool × State :=
  let xs := sectorsIn sett addr n
  if xs.all (fun x => decide (s.sectorState x < 2)) then (true, s) else (false, s.recall xs)

/-- The directory's part in one Wr that writes sectors of one line (R365, R402): owned sectors are recalled first, the sharers of the
written sectors are invalidated with one Inv for each sett. None where the write has to wait; the state then holds what was
begun. -/
def State.dirWriteAll (s : State) (xs : List Nat) (req : Option Nat) : Bool × State :=
  if xs.any (fun x => decide (2 ≤ s.sectorState x)) then (false, s.recall xs)
  else
    match xs.filter (fun x => s.sectorState x = 1) with
    | [] => (true, s)
    | x :: rest =>
      match s.sendInvs x (x :: rest) req with
      | none => (false, s)
      | some s =>
        let e := (x :: rest).foldl (fun e y => e.withState (y % 4) 0) (s.dirOf x)
        (true, s.setDir x e.clearIdle)

/-- The directory's part in a write of n bytes. -/
def State.dirWrite (s : State) (sett addr n : Nat) (req : Option Nat) : Bool × State := s.dirWriteAll (sectorsIn sett addr n) req

/-! ## Reads and writes at the home -/

/-- A line is present in the home slices. -/
def State.llcHit (s : State) (sett addr : Nat) : Bool := Tab.get false (s.sett sett).llc (addr / 128)

/-- An access allocates its line in the home slice, other than with the hint bypass or on an uncached page. -/
def State.llcTouch (s : State) (sett addr hint : Nat) (cache : Nat) : State :=
  if hint = 3 || cache = 2 then s
  else s.modSett sett (fun t => { t with llc := Tab.set false t.llc (addr / 128) true })

/-- Words of a range change their registrant, core + 1, or lose it (R277). -/
def State.register (s : State) (sett addr n : Nat) (core : Option Nat) : State :=
  let v := match core with | none => 0 | some g => g + 1
  s.modSett sett (fun t => { t with registered :=
    (List.range ((addr % 4 + n + 3) / 4)).foldl (fun r w => Tab.set 0 r (addr / 4 + w) v) t.registered })

/-- A write as it reaches the home. -/
structure HomeWrite where
  sett : Nat
  addr : Nat
  n : Nat
  value : Nat
  key : Nat := 0
  ks : Bool := false
  stamp : Stamp := {}
  frontier : List (Nat × Nat) := []
  /-- the core that a store registers; engines, atomics and keep-siblings stores register none -/
  core : Option Nat := none
  launch : Option Nat := none
deriving DecidableEq, Repr

/-- A write that leaves an export entry in state 2 starts its revocation (R349, R352); a table base of 0 is none (log 2). -/
def State.noteExport (s : State) (sett addr n : Nat) : State :=
  let base := (s.sett sett).base 4
  if base = 0 || decide (addr + n ≤ base) || decide (base + 64 * 512 ≤ addr) then s
  else
    let first := (max addr base - base) / 64
    let last := (min (addr + n) (base + 64 * 512) - 1 - base) / 64
    let ev (j : Nat) : Event := .exportRevoke sett (first + j)
    forEach (List.range (last + 1 - first)) s (fun j t =>
      if bits (t.hbmRead sett (base + 64 * (first + j)) 8) 1 0 = 2 && !t.agenda.any (fun e => e.ev = ev j) then
        t.schedule 1 47 (ev j)
      else t)

/-- Perform a write at the home; on a keep-siblings page cell by cell, where a part of a cell takes the primary's other
bytes (R283). Answers the cells that R291 refuses. -/
def State.homeWrite (s : State) (w : HomeWrite) : List (Nat × Word) × State :=
  if inContext w.addr then ([], s)
  else if !w.ks then
    ([], ((s.hbmWriteKey w.sett w.addr w.n w.key w.value w.launch).register w.sett w.addr w.n w.core).noteExport w.sett w.addr w.n)
  else
    let cells := (List.range ((w.addr % 4 + w.n + 3) / 4)).map (fun j => w.addr / 4 * 4 + 4 * j)
    let (bad, s) := cells.foldl (fun (acc : List (Nat × Word) × State) a =>
      let old := acc.2.hbmRead w.sett a 4
      let lo := max a w.addr
      let hi := min (a + 4) (w.addr + w.n)
      let v := putBits old (8 * (hi - a) - 1) (8 * (lo - a)) (w.value / 2 ^ (8 * (lo - w.addr)))
      match acc.2.cellWrite w.sett a w.key (BitVec.ofNat 32 v) w.stamp w.frontier w.launch with
      | (.full, t) => (acc.1 ++ [(a, BitVec.ofNat 32 v)], t)
      | (_, t) => (acc.1, t)) ([], s)
    (bad, s.register w.sett w.addr w.n none)

/-- A sector of a range holds poison (R422). -/
def State.poisoned (s : State) (sett addr n : Nat) : Bool :=
  (sectorsOf (hbmAddr sett addr) n).any (fun x => Tab.get false s.poison x)

/-- Report the cells that a write was refused (R291, R292): `every` gives the crew a deferred trap with a fault buffer entry of kind 0x9
for each of them, as for its own stores, otherwise the first one becomes a trap where `trap` asks for it; `ring` writes a report of
kind 0x0B for each. -/
def State.refuse (s : State) (home k : Nat) (pc : BitVec 64) (issued : Nat) (bad : List (Nat × Word)) (stamp : Stamp)
    (trap every ring : Bool) : State :=
  let s := if ring then forEach bad s (fun c t => t.report home
      { kind := 0x0B, unit := 6, addr := c.1, info := c.2.toNat, stamp := stamp.word }) else s
  let told := if every then bad else if trap then bad.take 1 else []
  forEach told s (fun c s =>
    s.faultArrives (crewSett k) { s.crewFault k pc c.1 9 0 .write (2 ^ stamp.lane : Nat) 0 (.late k pc 13 issued) with
      stamp := stamp.word, value := c.2.toNat })

end Sys2Proof.Machine
end

