-- ==== Sys2Proof/Machine/Perform.lean ====
section
/-! DEFINITION. The way of a request from the core to the place that performs it and back (spec/01, R29 to R31; spec/06,
R142 to R157; spec/11, R271 to R280): launching, the strike window's clearance, performing one lane, returning data. -/

namespace Sys2Proof.Machine

/-! ## Classes (R139) -/

/-- Where a lane's access is performed. -/
inductive Cls where
  | near | cluster | home | peer | repl | host | remote
deriving DecidableEq, Repr

/-- Rows whose window accesses are puts (R353). -/
def ReqKind.isStore : ReqKind → Bool
  | .store | .stl => true
  | _ => false

/-- Class of a lane of a request. -/
def State.cls (s : State) (r : Req) (x : LaneReq) (t : Target) : Cls :=
  if isNear x.va then
    if nearCore (s.crew r.crew).core (x.va % 2 ^ 24) = (s.crew r.crew).core then .near else .cluster
  else if t.rep && r.kind.writes then .repl
  else match t.place with
    | .hbm q _ => if q = crewSett r.crew && !(t.window.isSome && r.kind.isStore) then .home else .peer
    | .host _ => .host
    | .remote _ _ => .remote
    | _ => .near

/-- The kinds whose access on the own core's bank goes through the hub: atomics wider than .blk and the deque (R154,
R159). -/
def Req.throughHub (r : Req) : Bool :=
  match r.kind with
  | .atom .. => r.scope != 0
  | .dqPush | .dqPop | .dqSteal => true
  | _ => false

/-- Whether the strike window holds the access (R280). -/
def Req.isHeld (r : Req) (c : Cls) : Bool :=
  match c with
  | .near => r.throughHub || r.kind = .post
  | .cluster => (match r.kind with | .load | .lda | .ldk => false | _ => true)
  | _ => true

/-- Cycles from the clearance, or from leaving the core where nothing is held, to the place (R31, R460; log 13). -/
def State.travel (s : State) (r : Req) (c : Cls) (t : Target) : Nat :=
  match c with
  | .near => if r.throughHub then 24 else (match r.kind with | .post => 75 | .binit | .arv _ | .bexp => 24 + r.late | _ => 0)
  | .cluster => 24 + (match r.kind with | .binit | .arv _ | .bexp => r.late | _ => 0)
  | .home => 75
  | .peer => if r.kind.isStore then 75 else 135
  | .repl => if ((Tab.get Area.init (s.sett (crewSett r.crew)).areas
      (match t.place with | .hbm q a => ((s.sett q).inArea a 1).getD 0 | _ => 0)).seqr) = crewSett r.crew then 75 else 135
  | .host => 75
  | .remote => 135 + (match t.place with
      | .remote w _ => (s.link ((windowOf (s.sett (crewSett r.crew)) w).link)).latency
      | _ => 0)

/-- Cycles from performing to the result, with those that the instruction's operands added (R24, R31). -/
def State.returnTime (s : State) (r : Req) (c : Cls) (t : Target) : Nat :=
  match c with
  | .near => (match r.kind with | .atom .. | .dqPop | .dqSteal => 24 | _ => 20) + r.late
  | .cluster => 24 + r.late
  | .home | .repl | .peer =>
    let base := (if c = .peer then 135 else 75) + r.late
    (match t.place with | .hbm q a => if s.llcHit q a then base else base + 270 | _ => base)
  | .host => 75 + r.late
  | .remote => s.travel r c t + r.late

/-- Transfers that the cluster network carries (R329). -/
def Cls.wheels (c : Cls) (r : Req) : Bool :=
  match c with
  | .near => r.throughHub
  | .cluster => true
  | _ => false

/-- First cycle from `t` on in a slot of core k of a cluster whose counter was 0 in cycle `begun` (R329). -/
def wheelSlot (begun k t : Nat) : Nat :=
  let p := (t - begun) % 16
  if p < 3 * k then t + (3 * k - p) else if p < 3 * k + 3 then t else t + (16 - p + 3 * k)

/-- A transfer of n bytes to or from a core's scratchpad takes the next of the core's slots that no earlier one has taken, 256
bytes in each (R329): the wait until it travels. -/
def State.takeWheel (s : State) (g n : Nat) : Nat × State :=
  let begun := (s.sett (coreSett g)).outOfReset
  let first := wheelSlot begun (g % 4) (max s.cycle (s.core g).wheel)
  let last := (List.range ((n + 255) / 256 - 1)).foldl (fun t _ => wheelSlot begun (g % 4) (t + 1)) first
  (first - s.cycle, s.modCore g (fun c => { c with wheel := last + 1 }))

/-- Lanes of a request that travel to one core's scratchpad together: the wait of each lane's core. -/
def State.wheelWaits (s : State) (r : Req) (lanes : List LaneReq) : List (Nat × Nat) × State :=
  let from_ := (s.crew r.crew).core
  let dest (x : LaneReq) : Nat := nearCore from_ (x.va % 2 ^ 24)
  let mine := lanes.filter (fun x => match x.target with | some t => (s.cls r x t).wheels r | none => false)
  ((mine.map dest).eraseDups).foldl (fun (acc : List (Nat × Nat) × State) g =>
    let w := acc.2.takeWheel g (r.size * (mine.filter (fun x => dest x = g)).length)
    ((g, w.1) :: acc.1, w.2)) ([], s)

/-- The wait of a lane among those of its request. -/
def waitOf (ws : List (Nat × Nat)) (g : Nat) : Nat := match ws.find? (fun w => w.1 = g) with | some w => w.2 | none => 0

/-- Agenda key of an access: one to a tile slot sees the mode that the cycle's switches give it (R246). -/
def Req.accessKey (r : Req) : Nat :=
  if r.lanes.any (fun x => x.target.any (fun t => match t.place with | .tile _ _ => true | _ => false)) then 48 else 30

/-- Agenda place and event that carry a request of a core on; the deque's steps belong to the cluster's hub. The updates of an object
in one cycle go in the order of R257: BINIT before the bytes that copies land, these before BEXP and ARV, those of the own core
before the others by core. -/
def Req.event (r : Req) (id lane core : Nat) : Nat × Nat × Event :=
  match r.kind with
  -- an access performed in the cycle of PUBL's step sees the new frames (R269)
  | .publ => (9, 0, .storePerformed id)
  | .store | .stl | .evict => (r.accessKey, 0, .storePerformed id)
  | .atom .. => (r.accessKey, 0, .atomicStep id lane)
  | .rcn .. => (30, 0, .reconcileStep id lane)
  | .dqPush | .dqPop | .dqSteal => (31, 0, .dequeStep (core / 4))
  | .post => (46, core % 1024, .postBufferDrain core)
  | .binit => (10, 0, .barrierUpdate id)
  | .arv _ | .bexp =>
    if r.lanes.all (fun x => nearCore core (x.va % 2 ^ 24) = core) then (34, 0, .barrierUpdate id)
    else (34, 1 + core % 512, .barrierUpdate id)
  | _ => (r.accessKey, 0, .loadDataReturn id)

/-- Schedule the event that carries a request's lanes on at their due cycles. -/
def State.follow (s : State) (id : Nat) (r : Req) (lanes : List LaneReq) : State :=
  let perLane : Bool := match r.kind with | .atom .. | .rcn .. => true | _ => false
  let due := (lanes.map (fun x => (x.due - s.cycle, if perLane then x.lane else 0))).eraseDups
  forEach due s (fun d t => let (key, sub, ev) := r.event id d.2 (s.crew r.crew).core
                            t.scheduleSub d.1 key sub ev)

/-! ## Changing lanes -/

/-- Number of a part of a request: the lane, or 32 + the lane for the upper half of a 128-bit access (R148). -/
def LaneReq.part (x : LaneReq) : Nat := 32 * x.half + x.lane

def Req.lane (r : Req) (p : Nat) : Option LaneReq := r.lanes.find? (fun x => x.part = p)

def Req.setLane (r : Req) (x : LaneReq) : Req := { r with lanes := r.lanes.map (fun y => if y.part = x.part then x else y) }

def State.setLane (s : State) (id : Nat) (x : LaneReq) : State := s.modReq id (fun r => r.setLane x)

/-- What an access met, for STATUS when its request leaves its counter (R136). -/
def State.noteReq (s : State) (id : Nat) (f : NearFlags) : State := s.modReq id (fun r => { r with flags := r.flags.or f })

/-! ## L1 and peer sectors on the load path -/

/-- The number by which L1 and the directory's messages know memory: its sett in the package, and from 8 on what an export of another
module names, in parts of 2^37 bytes; and the address in it (log 118). -/
def State.named (s : State) (own : Nat) (p : Place) : Option (Nat × Nat) :=
  match p with
  | .hbm q a => some (q, a)
  | .remote w o => some (8 + (windowOf (s.sett own) w).handle / 2 ^ 40 * 8 + o % 2 ^ 40 / 2 ^ 37, o % 2 ^ 37)
  | _ => none

/-- A number names another module's memory. -/
def foreign (q : Nat) : Bool := decide (8 ≤ q)

/-- The link on which the module of a foreign sector stands, where it is up (R378). -/
def State.linkOf (s : State) (x : Nat) : Option Nat :=
  (List.range 18).find? (fun l => (s.link l).st = 1 && (s.link l).peer = (sectorSett x - 8) / 8 / 2 ^ 12)

/-- Sett and address of a foreign sector in messages (log 30). -/
def foreignAt (x : Nat) : Nat × Nat :=
  let h := (sectorSett x - 8) / 8
  (h / 2 ^ 9 % 8, h % 2 ^ 9 * 2 ^ 40 + (sectorSett x - 8) % 8 * 2 ^ 37 + sectorAddr x)

/-- The foreign sector that a message from a link names. -/
def State.foreignSector (s : State) (l sett addr : Nat) : Nat :=
  let h := (s.link l).peer * 2 ^ 12 + sett % 8 * 2 ^ 9 + addr / 2 ^ 40 % 2 ^ 9
  sectorOf (8 + h * 8 + addr % 2 ^ 40 / 2 ^ 37) (addr % 2 ^ 37)

/-- A load may use the core's L1: an ordinary load of a cacheable device or peer page (R147, R254, R268, R356, R361). -/
def State.cacheable (s : State) (r : Req) (t : Target) : Bool :=
  (match r.kind with | .load | .lda | .pref => true | _ => false) && (s.core (s.crew r.crew).core).l1Size != 0 && t.cache = 0 &&
  !t.rep && !t.sh && (match t.place with | .hbm .. => true | .remote .. => true | _ => false)

/-- Every word of the access is in L1; a peer sector has to stand in S (R366). -/
def State.l1Hit (s : State) (r : Req) (t : Target) : Bool :=
  s.cacheable r t &&
  match s.named (crewSett r.crew) t.place with
  | some (q, a) =>
    let g := s.core (s.crew r.crew).core
    g.l1Has q a r.size && (q = crewSett r.crew || Tab.get .i g.sectors (sectorOf q a) = .s)
  | none => false

/-- A miss allocates in L1 (R144). -/
def Req.allocates (r : Req) : Bool := r.hint = 0 || r.hint = 2

/-- Tags of the words that an access reads (R286): those of words that L1 serves are the home's where the core has registered the
word, and otherwise those that came with it (log 18). -/
def State.tagRead (s : State) (r : Req) (t : Target) (hit : Bool) : List (Nat × Nat) :=
  match t.place with
  | .hbm q a =>
    let g := (s.crew r.crew).core
    (List.range ((a % 4 + r.size + 3) / 4)).filterMap (fun w =>
      let b := a / 4 * 4 + 4 * w
      if hit && !s.registeredBy g (lineOf q b) (b % 128 / 4) then (s.core g).l1Tag q b else (s.sett q).tagOf b)
  | p => s.padTags (some p) r.size

/-! ## What an atomic step computes (R155) -/

def atomicNew (op width old w w' : Nat) : Nat :=
  let n := 2 ^ width
  let so := sext width old
  let sw := sext width w
  match op with
  | 0 => (old + w) % n
  | 1 => if so ≤ sw then old else w
  | 2 => if so ≤ sw then w else old
  | 3 => min old w
  | 4 => max old w
  | 5 => old &&& w
  | 6 => old ||| w
  | 7 => old ^^^ w
  | 8 => w
  | 9 => if old = w then w' else old
  | 10 => if w ≤ old then 0 else old + 1
  | 11 => if old = 0 || decide (w < old) then w else old - 1
  | 12 => fadd32 0 old w
  | 13 => (fminmax false (BitVec.ofNat 32 old) (BitVec.ofNat 32 w)).toNat
  | _ => (fminmax true (BitVec.ofNat 32 old) (BitVec.ofNat 32 w)).toNat

/-- The value that a reconcile makes of a cell's values (R149); `k` is the operand of PICK and SET. -/
def collapse (mode : Nat) (vs : List Nat) (k : Nat) : Nat :=
  let v := vs.headD 0
  match mode with
  | 0 => v
  | 1 => vs.foldl (fun a b => if sext 32 a ≤ sext 32 b then b else a) v
  | 2 => vs.foldl (fun a b => if sext 32 b < sext 32 a then b else a) v
  | 3 => vs.foldl (fun a b => (a + b) % 2 ^ 32) 0
  | 4 => vs.foldl (fun a b => fadd32 0 a b) 0
  | 5 => vs.foldl (fun a b => a ||| b) 0
  | 6 => vs.foldl (fun a b => a &&& b) (2 ^ 32 - 1)
  | 7 => vs.getD (min k (vs.length - 1)) 0
  | _ => k

/-! ## Performing one lane -/

/-- One sector of one core's L1 is invalidated (R366). -/
def State.invSector (s : State) (core x : Nat) : State :=
  let g := s.core core
  let drop (g : Core) : Core := g.l1Drop (sectorSett x) (sectorAddr x) 64
  match Tab.get SectorSt.i g.sectors x with
  | .s => s.modCore core (fun g => drop { g with sectors := Tab.set SectorSt.i g.sectors x .i })
  | .is => s.modCore core (fun g => { g with sectors := Tab.set SectorSt.i g.sectors x .isi })
  | _ => s

/-- A write of n bytes leaves for another module, 32 bytes in a flit. What the own core holds of the sectors leaves its L1 with it, as the
Inv that the write brings will have it (R272, R365; log 118). -/
def State.writeRemote (s : State) (own core w o n v : Nat) : State :=
  let s := forEach (List.range ((n + 31) / 32)) s (fun j t =>
    t.toWindow own w (o + 32 * j) 1 (min 32 (n - 32 * j)) 0 (v / 2 ^ (256 * j) % 2 ^ 256))
  match s.named own (.remote w o) with
  | some (q, a) => forEach (List.range ((a + n + 63) / 64 - a / 64)) s (fun j t => t.invSector core (sectorOf q (a + 64 * j)))
  | none => s

/-- A lane's message to another module through its window's link: 1 its data, 2 an atomic `op`, 3 a reconcile of mode `op`, 11 a
read. -/
def State.toRemote (s : State) (r : Req) (code op : Nat) (x : LaneReq) (t : Target) : State :=
  let own := crewSett r.crew
  let core := (s.crew r.crew).core
  match t.place with
  | .remote w o =>
    if code = 1 then s.writeRemote own core w o r.size x.data
    else
      let s := s.toWindow own w o code r.size op x.data
      if code = 11 then s
      else match s.named own t.place with
        | some (q, a) => s.invSector core (sectorOf q a)
        | none => s
  | _ => s

/-- Kind of access of a request (R342). -/
def ReqKind.access : ReqKind → Access
  | .store | .stl => .write
  | .atom .. | .rcn .. => .atomic
  | _ => .read

/-- A fault that an access finds where it is performed: the key slot is empty, or the export was revoked (R352, R455). The
lane ends with a free value and the crew takes a deferred translation fault (log 19). -/
def State.lateFault (s : State) (id : Nat) (r : Req) (x : LaneReq) (kind : Nat) : State :=
  let level := match x.target with | some t => t.level | none => 0
  let s := s.faultArrives (crewSett r.crew) (s.crewFault r.crew r.pc x.va kind level r.kind.access (2 ^ x.lane : Nat) 0
    (.late r.crew r.pc 12 r.issued))
  let (d, s) := s.draw
  let y := { x with done := true, back := true, value := (Config.remote d 0).toNat % 2 ^ (8 * r.size), due := s.cycle + 1 }
  (s.setLane id y).follow id r [y]

/-- The key of the page is still there, and a window's export still stands, when an access is performed; `gone` marks one that has left
its sett (R352, R455). -/
def State.placeKind (s : State) (sett : Nat) (t : Target) (gone : Bool := false) : Option Nat :=
  match t.place with
  | .hbm q _ =>
    if q = sett && (s.keyOf q t.key).isNone then some 7
    else match t.window with
      | none => none
      | some w =>
        let e := windowOf (s.sett (sett)) w
        let i := bits e.handle 48 40
        if e.closing && decide (e.closedAt + 60 ≤ s.cycle) && !gone then some 8
        else if bits (s.hbmRead q ((s.sett q).base 4 + 64 * i) 8) 1 0 != 1 then some 8 else none
  | .remote w _ => if (s.link ((windowOf (s.sett (sett)) w).link)).st = 1 then none else some 8
  | _ => none

def State.lateKind (s : State) (r : Req) (t : Target) : Option Nat := s.placeKind (crewSett r.crew) t (r.phase = 2)

/-- The outbound filter as an access to host memory leaves the port (R457). -/
def State.portKind (s : State) (r : Req) (t : Target) : Option Nat :=
  match t.place with
  | .host a =>
    let acc := r.kind.access
    if (s.sett (crewSett r.crew)).filterOk a r.size (decide (acc ≠ .write)) (decide (acc ≠ .read)) then none else some 8
  | _ => none

/-- Drop the issuing core's L1 copy of an access that the home performed itself (R254, R272). -/
def State.dropL1 (s : State) (k : Nat) (t : Target) (n : Nat) : State :=
  match t.place with
  | .hbm q a => s.modCore (s.crew k).core (fun g => g.l1Drop q a n)
  | _ => s

/-- An access to host memory takes its lines into the port where the host has enabled CXL.cache (R373, R374). -/
def State.takeLines (s : State) (sett : Nat) (t : Target) (n : Nat) : State :=
  match s.cxlCache, t.place with
  | true, .host a =>
    let ls := ((List.range ((a + n + 63) / 64 - a / 64)).map (fun j => (sett, a / 64 + j))).filter (fun l => !s.portLines.contains l)
    { s with portLines := s.portLines ++ ls }
  | _, _ => s

/-- A write to host memory without CXL.cache is posted (R373). -/
def State.notePosted (s : State) (sett : Nat) : State :=
  if s.cxlCache then s else s.modSett sett (fun t => { t with posted := true })

/-- Zero-length reads behind the posted writes of a sett's port; its releases at .sys wait until they are complete (R373), 150 cycles as the
host's other answers take (log 13). -/
def State.flushPosted (s : State) (sett : Nat) : State :=
  if (s.sett sett).posted then
    (s.modSett sett (fun t => { t with posted := false, flushed := s.cycle + 150 })).send (.cxl sett 10 0 0)
  else s

/-- A load's lane is performed: near, at the home, in host memory. -/
def State.loadLane (s : State) (id : Nat) (r : Req) (x : LaneReq) (t : Target) : State :=
  let core := (s.crew r.crew).core
  let c := s.cls r x t
  let retry (s : State) : State := let y := { x with due := s.cycle + 1 }
                                   (s.setLane id y).follow id r [y]
  let got (s : State) (v aux : Nat) : State :=
    let y := { x with done := true, value := v, aux := aux, due := s.cycle + s.returnTime r c t }
    (s.setLane id y).follow id r [y]
  match c with
  | .near | .cluster =>
    if c = .cluster && s.tooYoung r.crew core (x.va % 2 ^ 24) r.size then retry s
    else
      let (v, f) := s.nearRead r.crew core (x.va % 2 ^ 24) r.size
      let s := s.modReq id (fun y => { y with tags := y.tags ++ s.tagRead r t false })
      got (s.noteReq id f) v 0
  | .host => match s.portKind r t with
    | some kind => s.lateFault id r x kind
    | none => got (s.takeLines (crewSett r.crew) t r.size) (s.memRead t r.size).1 0
  | .remote =>
    let (d, s) := (s.toRemote r 11 0 x t).draw
    got s ((Config.remote d 0).toNat % 2 ^ (8 * r.size)) (if t.ks && r.kind = .ldk then (Config.remote d 1).toNat % 256 else 0)
  | .home | .repl | .peer =>
    match s.lateKind r t, t.place with
    | some kind, _ => s.lateFault id r x kind
    | none, .hbm q a =>
      let (ok, s) := s.homeReady q a r.size
      if !ok then retry s
      else
        let (v, s) := s.memRead t r.size
        let sib := if t.ks && r.kind = .ldk then s.siblings q a else 0
        let s := s.modReq id (fun y => { y with tags := y.tags ++ s.tagRead r t false })
        let s := if r.kind = .ldk then s.dropL1 r.crew t r.size else s
        (got s v sib).llcTouch q a r.hint t.cache
    | none, _ => s

/-- A store of the own sett's memory whose line the core's L1 may hold (R254, R268). -/
def State.ownLine (s : State) (r : Req) (t : Target) : Bool :=
  (s.core (s.crew r.crew).core).l1Size != 0 && t.cache = 0 && !t.rep && !t.sh &&
  (match t.place with | .hbm q _ => q = crewSett r.crew | _ => false)

/-- The sectors of one 256-byte line that the lanes of a store still write at a home: they reach it as one Wr (R402). -/
def State.lineSectors (s : State) (r : Req) (q a : Nat) : List Nat :=
  (r.lanes.flatMap (fun y => match y.target.map (fun t => (s.visible (crewSett r.crew) t).place) with
    | some (.hbm p b) =>
      if p = q && b / 256 = a / 256 && !y.done && y.out && y.free && decide (y.due ≤ s.cycle) then sectorsIn q b r.size else []
    | _ => [])).eraseDups

/-- A store's lane is performed (R142, R145, R277). -/
def State.storeLane (s : State) (id : Nat) (r : Req) (x : LaneReq) (t : Target) : State :=
  let core := (s.crew r.crew).core
  let c := s.cls r x t
  let launch := some (s.launchOf r.crew)
  let retry (s : State) : State := let y := { x with due := s.cycle + 1 }
                                   (s.setLane id y).follow id r [y]
  let done (s : State) : State := s.setLane id { x with done := true }
  match c with
  | .near | .cluster =>
    let off := x.va % 2 ^ 24
    let (s, f) := s.nearWrite r.crew core off x.data r.size
    let s := s.noteReq id f
    let s := if c = .near then s
             else match s.nearPlace r.crew core off with
               | some (.pad b o) => s.redo (nearCore core off) (.pad 0 b o r.size x.data)
               | _ => s
    done (if r.release then s.tagPad (some t.place) r.size r.stamp.ident r.stamp.epoch else s)
  | .host => match s.portKind r t with
    | some kind => s.lateFault id r x kind
    | none => done (((s.takeLines (crewSett r.crew) t r.size).memWrite t r.size x.data launch).notePosted (crewSett r.crew))
  | .remote => done (s.toRemote r 1 0 x t)
  | .peer =>
    match t.place with
    | .hbm q a =>
      if t.window.any (fun w => (windowOf (s.sett (crewSett r.crew)) w).closing) then s.lateFault id r x 8 else
      let y : LaneReq := { x with free := true, out := true, due := s.cycle + 60 }
      -- the lanes of one instruction that write one line are one Wr (R402)
      let joins (w : Req) : Bool := w.phase = 2 && w.crew = r.crew && w.pc = r.pc && w.issued = r.issued && w.dst = 0 && w.agent = 0 &&
        w.lanes.any (fun z => z.due = y.due && !z.done && z.target.any (fun u => match u.place with
          | .hbm p b => p = q && b / 256 = a / 256
          | _ => false))
      let (new, pid, s) := match s.reqs.find? (fun p => p.2.any joins) with
        | some p => (false, p.1, s.modReq p.1 (fun w => { w with lanes := w.lanes ++ [y] }))
        | none =>
          let (pid, s) := s.fresh
          (true, pid, s.setReq pid (some { r with lanes := [y], phase := 2, deps := [], dst := 0 }))
      -- the crew's later accesses to the bytes wait for the put at the owning home
      let s := { s with reqs := s.reqs.map (fun (y : Nat × Option Req) => (y.1, y.2.map (fun (w : Req) =>
        if w.deps.contains id && w.overlaps x.va r.size then { w with deps := w.deps ++ [pid] } else w))) }
      done (if new then s.schedule 60 14 (.wr q pid) else s)
    | _ => done s
  | .home | .repl =>
    match s.lateKind r t, t.place with
    | some kind, _ => s.lateFault id r x kind
    | none, .hbm q a =>
      if (s.sett q).inFaultBuffer a then
        done (if r.kind = .stl && r.scope = 2 && r.size = 8 && (a - (s.sett q).base 1) % 64 = 16 then
            s.schedule 0 44 (.faultResStore q ((a - (s.sett q).base 1) / 64) x.data)
          else s)
      else
      let (ok, s) := s.dirWriteAll (s.lineSectors r q a) (some id)
      if !ok then retry s
      else
        let w : HomeWrite :=
          { sett := q, addr := a, n := r.size, value := x.data, key := t.key, ks := t.ks,
            stamp := (r.stamp.at (crewSett r.crew) q x.lane), frontier := r.frontier.pairs,
            core := if t.ks then none else some core, launch := launch }
        let (bad, s) := s.homeWrite w
        let s := s.refuse q r.crew r.pc r.issued bad w.stamp true true false
        let s := if t.ks then s.dropL1 r.crew t r.size else s
        let s := if r.release then s.tagWords q a r.size r.stamp.ident r.stamp.epoch else s
        let s := done (s.llcTouch q a r.hint t.cache)
        if t.ks then s
        else if r.size < 4 && s.ownLine r t && r.allocates then s.l1Merge core q a (r.hint = 2)
        else s.l1Settle core q a r.size
    | none, _ => s

/-- Method of a host atomic (R374): 0 none, 1 ownership, 2 a native AtomicOp, 3 the CAS loop. -/
def State.hostMethod (s : State) (op : Nat) : Nat :=
  if s.cxlCache then 1 else if !s.atomicOps then 0 else if op = 0 || op = 8 || op = 9 then 2 else 3

/-- Host words in a CAS loop at a sett's port. -/
def State.hostBusy (s : State) (sett a : Nat) : Bool :=
  s.reqs.any (fun p => match p.2 with
    | none => false
    | some r => crewSett r.crew = sett && r.lanes.any (fun x => x.wait && !x.done && (match x.target with
        | some t => t.place = .host a
        | none => false)))

/-- One AtomicOp CAS of the loop: the host's step at once, its response 150 cycles on. -/
def State.hostCas (s : State) (id : Nat) (r : Req) (x : LaneReq) (a op old : Nat) : State :=
  let new := atomicNew op (8 * r.size) old (x.data % 2 ^ (8 * r.size)) (x.data / 2 ^ (8 * r.size))
  let cur := s.hostRead a r.size
  let s := if cur = old then s.hostWrite a r.size new else s
  (s.setLane id { x with wait := true, aux := old }).schedule 150 30 (.hostAtomicCasResponse id cur)

/-- A release that adds to a counter has been performed in a sett: its engine reads the awaited dependence counters again
(R318). -/
def State.reread (s : State) (sett : Nat) : State :=
  if (s.sett sett).queues.any (fun p => p.2.checked && !p.2.dep) then s.schedule 0 79 (.dependencePoll sett) else s

/-- An engine adds to a counter in a sett's memory: a write at its home (R278, R281), which the dependence counters' engine reads again;
false where it has to wait there. -/
def State.homeAdd (s : State) (q a n key : Nat) : Bool × State :=
  let (ok, s) := s.dirWrite q a 8 none
  if !ok then (false, s)
  else
    let (old, s) := s.hbmReadKey q a 8 key
    (true, (((s.hbmWriteKey q a 8 key ((old + n) % 2 ^ 64) none).register q a 8 none).noteExport q a 8).reread q)

/-- An atomic's lane is performed (R154, R155, R293). -/
def State.atomicLane (s : State) (id : Nat) (r : Req) (x : LaneReq) (t : Target) (op : Nat) : State :=
  let core := (s.crew r.crew).core
  let c := s.cls r x t
  let width := 8 * r.size
  let w := x.data % 2 ^ width
  let w' := x.data / 2 ^ width
  let retry (s : State) : State := let y := { x with due := s.cycle + 1 }
                                   (s.setLane id y).follow id r [y]
  let got (s : State) (v : Nat) : State :=
    let y := { x with done := true, value := v, due := s.cycle + s.returnTime r c t }
    (s.setLane id y).follow id r [y]
  match c with
  | .near | .cluster =>
    let off := x.va % 2 ^ 24
    let (old, f) := s.nearRead r.crew core off r.size
    let (s, _) := s.nearWrite r.crew core off (atomicNew op width old w w') r.size
    let s := if c = .near && !r.throughHub then s
             else match s.nearPlace r.crew core off with
               | some (.pad b o) => s.redo (nearCore core off) (.pad 0 b o r.size (atomicNew op width old w w'))
               | _ => s
    let s := s.modReq id (fun y => { y with tags := y.tags ++ s.tagRead r t false })
    let s := if r.release then s.tagPad (some t.place) r.size r.stamp.ident r.stamp.epoch else s
    got (s.noteReq id f) old
  | .host =>
    match s.portKind r t, t.place with
    | some kind, _ => s.lateFault id r x kind
    | none, .host a =>
      if s.hostBusy (crewSett r.crew) a || r.lanes.any (fun y => y.wait && !y.done) then retry s
      else
        let old := s.hostRead a r.size
        if s.hostMethod op = 3 then s.hostCas id r x a op old
        else
          let s := s.takeLines (crewSett r.crew) t r.size
          got (s.hostWrite a r.size (atomicNew op width old w w')) old
    | none, _ => s
  | .remote =>
    let (d, s) := s.draw
    got (s.toRemote r 2 op x t) ((Config.remote d 0).toNat % 2 ^ width)
  | .home | .peer | .repl =>
    match s.lateKind r t, t.place with
    | some kind, _ => s.lateFault id r x kind
    | none, .hbm q a =>
      let (ok, s) := s.dirWrite q a r.size (some id)
      if !ok then retry s
      else
        let (old, s) := s.memRead t r.size
        let new := atomicNew op width old w w'
        let s := s.hbmWriteKey q a r.size t.key new (some (s.launchOf r.crew))
        let s := ((s.register q a r.size none).dropL1 r.crew t r.size).noteExport q a r.size
        let s := s.modReq id (fun y => { y with tags := y.tags ++ s.tagRead r t false })
        let s := if r.release then s.tagWords q a r.size r.stamp.ident r.stamp.epoch else s
        let s := if op = 0 && r.release then s.reread q else s
        (got s old).llcTouch q a 0 t.cache
    | none, _ => s

/-- A reconcile's lane is performed (R149, R294). -/
def State.reconcileLane (s : State) (id : Nat) (r : Req) (x : LaneReq) (t : Target) (mode : Nat) : State :=
  let c := s.cls r x t
  let retry (s : State) : State := let y := { x with due := s.cycle + 1 }
                                   (s.setLane id y).follow id r [y]
  match s.lateKind r t, t.place with
  | some kind, _ => s.lateFault id r x kind
  | none, .hbm q a =>
    let (ok, s) := s.dirWrite q a 4 (some id)
    if !ok then retry s
    else
      let vals := if t.ks then (s.cellValues q a).map (fun v => v.2.toNat) else [(s.memRead t 4).1]
      let v := collapse mode vals x.data
      let st := { r.stamp.at (crewSett r.crew) q x.lane with rc := true }
      let launch := some (s.launchOf r.crew)
      let s := if t.ks then s.putCell q a t.key [(st, BitVec.ofNat 32 v)] launch else s.hbmWriteKey q a 4 t.key v launch
      let s := (s.register q a 4 none).dropL1 r.crew t 4
      let s := s.modReq id (fun y => { y with tags := y.tags ++ s.tagRead r t false })
      let s := s.tagWord q a r.stamp.ident r.stamp.epoch
      -- siblings beyond the third lie in the Mire, at the latency of HBM (R289, R290)
      let mire := if decide (4 < vals.length) && s.llcHit q a then 270 else 0
      let y := { x with done := true, value := v, aux := vals.length, due := s.cycle + s.returnTime r c t + mire }
      (((s.setLane id y).follow id r [y])).llcTouch q a 0 t.cache
  | none, .remote _ _ =>
    let (d, s) := s.draw
    let y := { x with done := true, value := (Config.remote d 0).toNat % 2 ^ 32,
                      aux := if t.ks then (Config.remote d 1).toNat % 256 + 1 else 1,
                      due := s.cycle + s.returnTime r c t }
    ((s.toRemote r 3 mode x t).setLane id y).follow id r [y]
  | none, _ => s

/-! ## Launching (R249, R280) -/

/-- A request may be performed: everything it waits for has been (R273). -/
def State.depsMet (s : State) (r : Req) : Bool := r.deps.all (fun d => !s.undone (decide (3 ≤ r.scope)) d)

/-- L1 shows the crew's earlier writes to the bytes: stores that have written it (R254, R272). -/
def State.l1Current (s : State) (r : Req) : Bool :=
  r.deps.all (fun d => match s.req d with
    | none => true
    | some w => !s.undone false d || (w.kind.isStore && !w.queued && w.lanes.all (fun x => match x.target with
        | some t => s.cls w x t = .home
        | none => false)))

/-- An earlier load of the crew of some of the bytes is on its way to the home or back: L1 may hold an older value than it brings
(R272). -/
def State.readsBefore (s : State) (id : Nat) (r : Req) (x : LaneReq) : Bool :=
  (s.crewReqs r.crew).any (fun p => decide (p.1 < id) && p.2.kind.reads && p.2.lanes.any (fun y => !y.hit && y.overlaps p.2.size x.va r.size))

/-- A place in a register region: a store there takes effect after every issue of its cycle has read its operands (R132). -/
def Target.inRegs (t : Target) : Bool := match t.place with | .reg _ _ => true | _ => false

/-- A lane leaves its core: a hit in L1 is performed there, what the strike window does not hold goes to its place,
the rest waits for the clearance 256 cycles on. -/
def State.launchLane (s : State) (id : Nat) (ws : List (Nat × Nat)) (r : Req) (x : LaneReq) (t : Target) : State :=
  let core := (s.crew r.crew).core
  let c := s.cls r x t
  if s.l1Hit r t && s.l1Current r && !s.readsBefore id r x then
    let x := { x with out := true, free := true, done := true, hit := true, due := s.cycle + 32 + r.late }
    match s.named (crewSett r.crew) t.place with
    | some (q, a) =>
      let x := { x with value := (s.core core).l1Read q a r.size }
      let s := s.modReq id (fun y => { (y.setLane x) with tags := y.tags ++ s.tagRead r t true })
      let s := s.modCore core (fun g => g.l1Touch (lineOf q a) r.hint)
      s.follow id r [x]
    | none => s
  else if (c = .peer || c = .remote) && s.cacheable r t && r.allocates then
    match s.named (crewSett r.crew) t.place with
    | some (q, a) =>
      let sec := sectorOf q a
      let s := (s.setLane id { x with out := true, wait := true, due := s.cycle + 256 }).schedule 256 15 (.strikeClearance id)
      if Tab.get SectorSt.i (s.core core).sectors sec = .i then
        (s.modCore core (fun g => { g with sectors := Tab.set .i g.sectors sec .is })).l1Place core (lineOf q a) (r.hint = 2)
      else s
    | none => s
  else if r.isHeld c then
    (s.setLane id { x with out := true, due := s.cycle + 256 }).schedule 256 15 (.strikeClearance id)
  else
    let w := if c.wheels r then waitOf ws (nearCore core (x.va % 2 ^ 24)) else 0
    let x := { x with out := true, free := true, due := s.cycle + s.travel r c t + w }
    if x.due = s.cycle && s.depsMet r && !(r.kind.isStore && t.inRegs) then
      match r.kind with
      | .load | .lda | .ldk => s.loadLane id r x t
      | .store | .stl => s.storeLane id r x t
      | _ => (s.setLane id x).follow id r [x]
    else (s.setLane id x).follow id r [x]

/-- Lanes that wait at the core for the range scoreboard leave once it lets them (R249). -/
def State.launch (s : State) (id : Nat) : State :=
  match s.req id with
  | none => s
  | some r =>
    if r.queued then s
    else
      let core := (s.crew r.crew).core
      let goes (x : LaneReq) : Bool := x.target.isSome && !x.out && !x.done && !s.scored core r.crew x.va r.size
      let (ws, s) := s.wheelWaits r (r.lanes.filter (fun x => goes x && (match x.target with
        | some t => !r.isHeld (s.cls r x t)
        | none => false)))
      let s := r.lanes.foldl (fun s x =>
        match x.target with
        | some t => if goes x then s.launchLane id ws r x t else s
        | none => s) s
      let held : List LaneReq := match s.req id with
        | none => []
        | some r => r.lanes.filter (fun x => x.target.isSome && !x.out && !x.done)
      s.follow id r ((held.take 1).map (fun (x : LaneReq) => { x with due := s.cycle + 1 }))

/-- A GetS or its answer for a sector is on its way to or from a core. -/
def State.asked (s : State) (core x : Nat) : Bool :=
  let mine (e : Event) : Bool := match e with
    | .gets _ y c | .fwdGets _ y c => y = x && c = core
    | .data c y => y = x && c = core
    | _ => false
  s.agenda.any (fun t => mine t.ev) || (s.dirOf x).queue.any (fun q => mine q.2)

/-- The first of a sector's waiting loads to be cleared sends the GetS (R366). -/
def State.askSector (s : State) (core x : Nat) : State :=
  let st := Tab.get SectorSt.i (s.core core).sectors x
  if s.asked core x || st = .si then s
  else (s.modCore core (fun g => { g with sectors := Tab.set .i g.sectors x .is })).schedule 135 14 (.gets (sectorSett x) x core)

/-- The core clears a request 256 cycles after it was issued (R413): its lanes go on to their places. -/
def State.clear (s : State) (id : Nat) : State :=
  match s.req id with
  | none => s
  | some r =>
    let ready (x : LaneReq) : Bool := x.out && !x.free && !x.done && decide (x.due ≤ s.cycle)
    let (ws, s) := s.wheelWaits r (r.lanes.filter (fun x => ready x && !x.wait))
    r.lanes.foldl (fun s x =>
      if !ready x then s
      else
        match x.target with
        | none => s
        | some t =>
          let c := s.cls r x t
          if x.wait then
            match s.named (crewSett r.crew) t.place with
            | some (q, a) =>
              -- behind a write of the crew to its bytes, a load does not join a GetS that may have passed it (R272)
              if !s.depsMet r || (r.deps != [] && s.asked (s.crew r.crew).core (sectorOf q a)) then (s.setLane id { x with due := s.cycle + 1 }).schedule 1 15 (.strikeClearance id)
              else (s.setLane id { x with free := true }).askSector (s.crew r.crew).core (sectorOf q a)
            | none => s
          else
            let w := waitOf ws (nearCore (s.crew r.crew).core (x.va % 2 ^ 24))
            let x := { x with free := true, due := s.cycle + s.travel r c t + (if c.wheels r then w else 0) }
            let s := s.setLane id x
            match c with
            | .repl =>
              let q := crewSett r.crew
              let a := (match t.place with | .hbm q a => ((s.sett q).inArea a 1).getD 0 | _ => 0)
              let sq := (Tab.get Area.init (s.sett q).areas a).seqr
              s.schedule (x.due - s.cycle) 14 (.replicaWrite sq a id)
            | _ => s.follow id r [x]) s

/-! ## The end of a request -/

/-- Forget fence conditions that are met (a load whose symbol has resolved has its data); the last load of an acquire lets
L1 invalidate itself (R146, R153). A fence entry is twice the identifier, plus one where completion is asked for. -/
def State.settleFences (s : State) (k : Nat) : State :=
  let c := s.crew k
  let open_ (n : Nat) : Bool := s.undone (n % 2 = 1) (n / 2)
  let loads := c.fenceLoads.filter (fun n => (s.req (n / 2)).isSome && !c.syms.any (fun y => y.req = n / 2 && y.resolved))
  let stores := c.fenceStores.filter open_
  let flush := c.fenceSys && stores = []
  let s := if flush then s.flushPosted (crewSett k) else s
  let s' := s.setCrew k { c with
    fenceStores := stores
    fenceSys := c.fenceSys && !flush
    fenceUntil := if flush then max c.fenceUntil (s.sett (crewSett k)).flushed else c.fenceUntil
    fenceAll := c.fenceAll.filter open_
    fenceLoads := loads
    selfInval := c.selfInval && loads != [] }
  if c.selfInval && loads = [] then s'.selfInvalidate c.core else s'

/-- Pairs that an acquire read enter the frontier; a relaxed load keeps them for the next acquire fence (R286). -/
def Crew.takeTags (c : Crew) (r : Req) : Crew :=
  if r.acquire then { c with frontier := r.tags.foldl (fun f p => f.add p) c.frontier }
  else match r.kind with
    | .load | .ldk => { c with held := c.held ++ r.tags }
    | _ => c

/-- A loaded value as its registers hold it (R143). -/
def loadValue (z v : Nat) : Nat :=
  match z with
  | 0 => wrap 32 (sext 8 v)
  | 2 => wrap 32 (sext 16 v)
  | _ => v

/-- Write a request's values to its destination (R29, R143, R147, R149); each register loses the mark of this request alone (R32). -/
def Crew.takeValues (c : Crew) (r : Req) : Crew :=
  let c := r.lanes.foldl (fun c x =>
    let v := match r.kind with
      | .ldk | .rcn _ true => x.value + 2 ^ 32 * x.aux
      | .dqPop | .dqSteal => x.value + 2 ^ 32 * x.aux
      | .load | .lda => loadValue r.zfield x.value
      | _ => x.value
    let w := if r.width = 4 then 2 else r.width
    (List.range w).foldl (fun c j => c.writeReg (r.dst + 2 * x.half + j) x.lane (resWord v j) r.cnt) c) c
  { c with inFlight := (List.range r.width).foldl (fun l j => l.erase (r.dst + j)) c.inFlight }

/-- The L1 partition is filled with what a load brought (R144); a line of the own sett's memory. -/
def State.fillFrom (s : State) (r : Req) : State :=
  if !r.allocates then s
  else r.lanes.foldl (fun s x =>
    match x.target with
    | none => s
    | some t =>
      if !s.cacheable r t then s
      else match t.place with
        | .hbm q a =>
          if q != crewSett r.crew || s.l1Hit r t || inContext a then s
          else s.l1Fill (s.crew r.crew).core q a 128 (s.hbmRead q (a / 128 * 128) 128) ((s.sett q).tagsIn (a / 128 * 128) 128) (r.hint = 2)
        | _ => s) s

/-- What the home answered a load or an atomic with is no newer than L1's copies of the words: they take what the home holds, so that
a later load does not see an older value (R272). -/
def State.settleRead (s : State) (r : Req) : State :=
  r.lanes.foldl (fun s x => match x.target with
    | some t => (match t.place with
      | .hbm q a => if x.hit || q != crewSett r.crew || inContext a then s else s.l1Settle (s.crew r.crew).core q a r.size
      | _ => s)
    | none => s) s

/-- Poisoned data reaches the crew (R422): the unit code of its structure. -/
def State.readsPoison (s : State) (r : Req) : Option Nat :=
  r.lanes.findSome? (fun x => match x.target with
    | some t => (match t.place with
      | .hbm q a =>
        if x.hit then (if (s.core (s.crew r.crew).core).l1Bad q a then some 4 else none)
        else if s.poisoned q a r.size then some 8
        else if (match (s.sett q).cell a with | some c => c.bad | none => false) then some 6 else none
      | p => if s.placePoison p then some 1 else none)
    | none => none)

/-- A gang that consumes poison is killed and a report is written, with the unit code of the structure that the poison stood in (R422,
R424). -/
def State.consumePoison (s : State) (k unit : Nat) : State :=
  (s.report (crewSett k) { kind := 4, unit := unit, gangRec := crewRec k, block := blockId (crewBlock k), crew := k % 32,
                           core := (s.crew k).core }).killGang (crewSett k) (crewRec k)

/-- Which counter a request holds. -/
def ReqKind.counter : ReqKind → Counter
  | .load | .lda | .ldk | .rcn _ _ | .dqPop | .dqSteal | .fill => .loads
  | .atom _ _ returns _ => if returns then .loads else .stores
  | _ => .stores

/-- Kinds that hold a counter at all. -/
def ReqKind.counted : ReqKind → Bool
  | .binit | .arv _ | .bexp | .publ | .pref => false
  | _ => true

/-- Kinds that wait for their data. -/
def ReqKind.returns : ReqKind → Bool
  | .load | .lda | .ldk | .rcn _ _ | .dqPop | .dqSteal => true
  | .atom _ _ returns _ => returns
  | _ => false

/-- What ends with a request: a load whose data has arrived writes its registers, a store that is performed leaves its
counter; a deferring load resolves its symbol. -/
def State.finishReq (s : State) (id : Nat) : State :=
  match s.req id with
  | none => s
  | some r =>
    if r.lanes.any (fun x => !x.done || ((r.kind.returns || r.kind = .pref) && !x.back)) then s
    else if r.phase != 1 then s
    else
      let s := if r.kind.returns || r.kind = .pref then (s.fillFrom r).settleRead r else s
      match r.sym with
      | some y => s.schedule 0 50 (.symbolResolve r.crew y)
      | none =>
        let bad := if r.kind.returns then s.readsPoison r else none
        let s := if r.kind.isStore then s.clearCovered (r.lanes.filterMap (fun x => x.target.map Target.place)) r.size else s
        let s := s.redo (s.crew r.crew).core (.response id r)
        let s := s.modCrew r.crew (fun c =>
          let c := if r.kind.returns then (c.takeValues r).takeTags r else c
          let c := if r.kind = .ldk && r.lanes.any (fun x => x.aux != 0) then c.setStatus .sibseen else c
          let c := c.noteFlags r.flags
          if r.kind.counted then c.decr r.kind.counter else c)
        let s := if r.kind = .publ then s.groupDone r.group else s
        let s := if r.awaiting then s.modReq id (fun q => { q with phase := 3 }) else s.setReq id none
        let s := (s.settleFences r.crew).checkEnd r.crew
        match bad with
        | some u => s.consumePoison r.crew u
        | none => s

/-- An access from another core of the cluster waits for the entries of the owner core's scoreboard (R249). -/
def State.heldAtOwner (s : State) (r : Req) (x : LaneReq) (t : Target) : Bool :=
  s.cls r x t = .cluster &&
  (let g := nearCore (s.crew r.crew).core (x.va % 2 ^ 24)
   s.scored g r.crew (nwb + 2 ^ 21 + x.va % 2 ^ 21) r.size)

/-- The lanes of a request whose data has arrived. -/
def State.arrive (s : State) (id : Nat) : State :=
  s.modReq id (fun r => { r with lanes := r.lanes.map (fun x =>
    if x.done && decide (x.due ≤ s.cycle) then { x with back := true } else x) })

/-- Perform the lanes of a request that have come to their place, by `f`; one that has to wait for earlier accesses
tries again in the next cycle. -/
def State.runLanes (s : State) (id : Nat) (lanes : List Nat) (f : State → Req → LaneReq → Target → State) : State :=
  match s.req id with
  | none => s
  | some r =>
    let here := r.lanes.filter (fun x => lanes.contains x.lane && x.out && x.free && !x.done && !x.wait && decide (x.due ≤ s.cycle))
    let late (s : State) (ls : List LaneReq) : State :=
      let ls := ls.map (fun (x : LaneReq) => { x with due := s.cycle + 1 })
      (ls.foldl (fun t x => t.setLane id x) s).follow id r ls
    let flushes := r.release && decide (4 ≤ r.scope)
    if here = [] then s
    else if !s.depsMet r then late s here
    else if flushes && ((s.sett (crewSett r.crew)).posted || decide (s.cycle < (s.sett (crewSett r.crew)).flushed)) then
      late (s.flushPosted (crewSett r.crew)) here
    else here.foldl (fun s x => match x.target with
      | some t => if s.heldAtOwner r x t then late s [x] else f s r x (s.visible (crewSett r.crew) t)
      | none => s) s

end Sys2Proof.Machine
end

