-- ==== Sys2Proof/Machine/LoadStore.lean ====
section
/-! DEFINITION. LD, LDA, LDK, ST, STL (spec/06, R139 to R148), deferring loads and the egress queue (spec/04, R89 to R97),
and the events that end them. -/

namespace Sys2Proof.Machine

/-! ## Addresses and their traps (R140, R141) -/

/-- Target of an address for an access of n bytes. -/
def State.laneTarget (s : State) (k va n : Nat) (acc : Access) : Xlate :=
  if isNear va then
    match s.nearPlace k (s.crew k).core (va % 2 ^ 24) with
    | none => .space
    | some p => .ok { place := p }
  else s.translateFor k va n acc

/-- The address traps of a memory instruction: misaligned lanes, then lanes whose address class does not carry the
operation. `bad` names the classes that the instruction does not have. -/
def State.memTrap (s : State) (i : Instr) (n : Nat) (acc : Access) (bad : Nat → Target → Bool) (u : Issue) : Option (Trap × Nat) :=
  let c := s.crew u.crew
  let act := c.active i u.lanes
  let odd := act.filter (fun l => c.laneAddr i l % n != 0)
  let wrong := act.filter (fun l =>
    let va := c.laneAddr i l
    match s.laneTarget u.crew va n acc with
    | .space => true
    | .ok t => bad va t
    | _ => bad va { place := .gap })
  if odd != [] then some (.misaligned, (maskOf odd).toNat)
  else if wrong != [] then some (.addrSpace, (maskOf wrong).toNat)
  else none

/-- Translation of an instruction's lanes before any effect: its faults and misses park or trap it (R141). -/
inductive Resolved where
  | ok (ts : List (Nat × Nat × Target))
  | stop (s : State)

def State.resolveLanes (s : State) (u : Issue) (lanes : List (Nat × Nat)) (n : Nat) (acc : Access) : Resolved :=
  let rs := lanes.map (fun x => (x.1, x.2, s.laneTarget u.crew x.2 n acc))
  let fault := rs.find? (fun r => match r.2.2 with | .fault _ _ => true | _ => false)
  let miss := rs.filter (fun r => match r.2.2 with | .miss => true | _ => false)
  match fault with
  | some (_, va, .fault kind level) =>
    let bad := maskOf ((rs.filter (fun r => r.2.1 / 4096 = va / 4096)).map Prod.fst)
    .stop (s.instrFault u.crew u.pc va kind level acc u.lanes bad)
  | _ =>
    if miss != [] then
      .stop (((miss.map (fun r => r.2.1 / 4096)).eraseDups).foldl (fun s p => s.instrMiss u.crew u.pc (4096 * p) acc u.lanes) s)
    else .ok (rs.filterMap (fun r => match r.2.2 with | .ok t => some (r.1, r.2.1, t) | _ => none))

/-- Move the TLB entries of the addresses to the front (R338). -/
def State.touchTlb (s : State) (core : Nat) (vas : List Nat) : State :=
  s.modCore core (fun g => { g with tlb := vas.foldl tlbTouch g.tlb })

/-! ## Issuing a request -/

/-- Enter a request, count it, and let its lanes leave the core. -/
def State.enter (s : State) (r : Req) : Nat × State :=
  let (id, s) := s.fresh
  let s := s.setReq id (some r)
  let s := if r.kind.counted then s.modCrew r.crew (fun c => c.inc r.kind.counter) else s
  (id, s)

/-- A request that has been entered starts on its way. -/
def State.start (s : State) (id : Nat) : State := (s.launch id).finishReq id

/-- Conditions of an acquire: later accesses wait for its data, and L1 invalidates itself at .gang and wider (R146). -/
def State.beginAcquire (s : State) (k id scope : Nat) : State :=
  if (s.req id).isNone then (if scope = 0 then s else s.selfInvalidate (s.crew k).core)
  else s.modCrew k (fun c => { c with fenceLoads := c.fenceLoads ++ [2 * id], selfInval := c.selfInval || scope != 0 })

/-- The lanes of a request. -/
def laneReqs (now : Nat) (ts : List (Nat × Nat × Target)) (data : Nat → Nat) : List LaneReq :=
  ts.map (fun x => { lane := x.1, va := x.2.1, target := some x.2.2, data := data x.1, due := now })

/-- A place n bytes on; the halves of an aligned access lie in one place. -/
def Place.shift (p : Place) (n : Nat) : Place :=
  match p with
  | .reg k o => .reg k (o + n)
  | .pad b o => .pad b (o + n)
  | .tile b o => .tile b (o + n)
  | .gap => .gap
  | .hbm q a => .hbm q (a + n)
  | .host a => .host (a + n)
  | .remote w o => .remote w (o + n)

/-- The two aligned 64-bit halves of a 128-bit load or store, each a separate relaxed access (R148). -/
def Req.halved (r : Req) : Req :=
  if r.size = 16 && (r.kind.reads || r.kind.isStore) then
    { r with size := 8, lanes := r.lanes.flatMap (fun x =>
        [{ x with data := x.data % 2 ^ 64 },
         { x with half := 1, va := x.va + 8, data := x.data / 2 ^ 64,
                  target := x.target.map (fun t => { t with place := t.place.shift 8 }) }]) }
  else r

/-! ## Loads -/

/-- An LD defers (R89); what holds it back while d is pending is judged before (R90). -/
def Crew.defers (c : Crew) (i : Instr) (act : List Nat) (z : Nat) : Bool :=
  let f := info i
  let d := c.win (f.dst.getD (0, 1)).1
  act.all (fun l => !isNear (c.laneAddr i l)) && decide (z ≤ 4) && !f.strict && decide (c.syms.length < 16) &&
  (c.pendingReg d || decide (c.forms.length < 16))

/-- Lowest free symbol. -/
def Crew.freeSym (c : Crew) : Nat := ((List.range 16).find? (fun n => c.syms.all (fun y => y.num != n))).getD 0

/-- A lane's page is not in the TLB and a window will refuse the lane: the load does not run ahead of its translation, so that
the address-space trap is precise (R140, R351; log 103). -/
def State.spaceAhead (s : State) (k n : Nat) (vas : List Nat) : Bool :=
  vas.any (fun va => s.laneTarget k va n .read = .miss && (match s.walk (crewSett k) va with
    | .leaf l => s.applyLeaf (crewSett k) va n .read l false
    | _ => .miss) = .space)

/-- The form that a deferring load leaves in d (R89). -/
def Crew.loadForm (c : Crew) (i : Instr) (u : Issue) (sym now : Nat) : Crew :=
  let f := info i
  let d := c.win (f.dst.getD (0, 1)).1
  let act := c.active i u.lanes
  let zer := c.zeroed i u.lanes
  let lane (l : Nat) : LaneForm :=
    if act.contains l then { scale := 1, offset := 0, held := false }
    else if zer.contains l then { offset := 0, held := true }
    else { offset := (c.slot d l).val, held := true }
  let new : Form := { reg := d, sym := sym, kind := 0, rnd := 0, lanes := (List.range 32).map lane, avail := now + 4 + c.missOf i }
  let c := (act ++ zer).foldl (fun c l => c.setSlot d l { c.slot d l with cnt := BitVec.ofNat 2 f.cnt, rel := false }) c
  { c with forms := c.otherForms d ++ [new] }

/-- One lane of a load ends with a free value (R99, log 19). -/
def State.freeLane (s : State) (id size : Nat) (x : LaneReq) : State :=
  let (d, s) := s.draw
  s.setLane id { x with done := true, back := true, value := (Config.remote d 0).toNat % 2 ^ (8 * size) }

/-- The lanes of a request on one page, for its fault (R342). -/
def State.loadFault (s : State) (id va kind level : Nat) : State :=
  match s.req id with
  | none => s
  | some r =>
    let ls := r.lanes.filter (fun x => x.target.isNone && !x.done && x.va / 4096 = va / 4096)
    s.faultArrives (crewSett r.crew) (s.crewFault r.crew r.pc (match ls with | x :: _ => x.va | [] => va) kind level r.kind.access
      (maskOf (ls.map LaneReq.lane)) 0 (.load id))

/-- Lanes of a PREF on one page end without fetching anything (R152). -/
def State.dropLanes (s : State) (id va : Nat) : State :=
  s.modReq id (fun r => { r with lanes := r.lanes.filter (fun x => x.target.isSome || x.va / 4096 != va / 4096) })

/-- Lanes of a request that has left its threads behind and that have no translation yet: those on a miss wait for the walk; those on
a fault are reported, and a PREF drops them (R99, R152). A window that refuses what its page table admitted at the issue is an
absent target by then (log 103). The others leave. -/
def State.seekLanes (s : State) (id : Nat) (lanes : List (Nat × Xlate)) : State :=
  match s.req id with
  | none => s
  | some r =>
    let pref := decide (r.kind = .pref)
    let pages := (lanes.filterMap (fun y => match y.2 with
      | .miss => some (y.1 / 4096, none)
      | .fault k l => some (y.1 / 4096, some (k, l))
      | .space => some (y.1 / 4096, some (8, 0))
      | _ => none)).eraseDups
    let s := pages.foldl (fun s p =>
      match p.2 with
      | none => s.startWalk (crewSett r.crew) (s.crew r.crew).core (4096 * p.1) r.kind.access (if pref then .prefetch id else .load id)
      | some (kind, level) => if pref then s.dropLanes id (4096 * p.1) else s.loadFault id (4096 * p.1) kind level) s
    s.start id

/-- A deferring load (R89, R99): lanes whose page is not in the TLB wait for the walk, those on a fault for the fill. -/
def State.deferLoad (s : State) (x : Instr) (u : Issue) (r : Req) : State :=
  let c := s.crew u.crew
  let act := c.active x u.lanes
  let sym := c.freeSym
  let lanes := act.map (fun l => (l, c.laneAddr x l, s.laneTarget u.crew (c.laneAddr x l) r.size .read))
  let deps := s.loadDeps u.crew (act.map (fun l => (c.laneAddr x l, r.size)))
  let (id, s) := s.enter { r with
    sym := some sym
    deps := deps
    lanes := lanes.map (fun y => { lane := y.1, va := y.2.1, target := (match y.2.2 with | .ok t => some t | _ => none), due := s.cycle }) }
  let c := s.crew u.crew
  let c := c.countReads (info x).readRegs act
  let c := (c.loadForm x u sym s.cycle).dropDeadForms
  let c := { c with syms := c.syms ++ [{ num := sym, req := id, mask := maskOf act }] }
  let s := s.finishWith u x 4 c
  let s := s.touchTlb c.core (lanes.map (fun y => y.2.1))
  s.seekLanes id (lanes.map (fun y => y.2))

/-- A load that does not defer: its registers are in flight until its data arrives (R32, R90). -/
def State.plainLoad (s : State) (x : Instr) (u : Issue) (r : Req) (ts : List (Nat × Nat × Target)) : Nat × State :=
  let c := s.crew u.crew
  let f := info x
  let act := c.active x u.lanes
  let c := ((c.countReads f.readRegs act).releaseForms (f.writeRegs.map c.win)).writeResults f (c.zeros x u)
  let c := { c with inFlight := c.inFlight ++ f.writeRegs.map c.win }
  let s := s.finish u x c
  let ranges := ts.map (fun t => (t.2.1, r.size))
  let deps := if r.kind.reads then s.loadDeps u.crew ranges else s.overlapDeps u.crew ranges r.kind.writes
  let (id, s) := s.enter { r with deps := r.deps ++ deps }.halved
  ((id, s.touchTlb c.core (ts.map (fun t => t.2.1))))

/-- The request of a load of d. -/
def Crew.loadReq (c : Crew) (i : Instr) (u : Issue) (kind : ReqKind) (now : Nat) : Req :=
  let f := info i
  let o := f.dst.getD (0, 1)
  { kind := kind, crew := u.crew, pc := u.pc, size := (accessBytes i).getD 4, dst := c.win o.1, width := o.2, cnt := f.cnt,
    lanes := [], issued := now, frontier := c.frontier, late := c.missOf i }

/-- With every lane inactive a load only writes a zeroing mask's zeros. -/
def State.idleLoad (s : State) (x : Instr) (u : Issue) : State :=
  let c := s.crew u.crew
  s.finish u x ((c.releaseForms ((info x).writeRegs.map c.win)).writeResults (info x) (c.zeros x u))

/-- LD (R143). -/
def execLd (px : Option Pfx) (d : BitVec 7) (a : BitVec 7) (z : BitVec 3) (h : BitVec 2) (g : BitVec 4) (s : State) : Out :=
  let x : Instr := .ld px d a z h g
  let n := sizeBytes z.toNat
  s.issueMem x (s.memTrap x n .read (fun _ _ => false)) (fun u =>
    let c := s.crew u.crew
    let act := c.active x u.lanes
    let r := { c.loadReq x u .load s.cycle with zfield := z.toNat, hint := h.toNat }
    if act = [] then .next (s.idleLoad x u)
    else if c.defers x act z.toNat && !s.spaceAhead u.crew n (act.map (c.laneAddr x)) then .next (s.deferLoad x u r)
    else
      match s.resolveLanes u (act.map (fun l => (l, c.laneAddr x l))) n .read with
      | .stop t => .next t
      | .ok ts =>
        let (id, s) := s.plainLoad x u { r with lanes := laneReqs s.cycle ts (fun _ => 0) } ts
        .next (s.start id))

/-- LDA (R146). -/
def execLda (px : Option Pfx) (d : BitVec 7) (a : BitVec 7) (z : BitVec 3) (sc : BitVec 3) (g : BitVec 4) (s : State) : Out :=
  let x : Instr := .lda px d a z sc g
  let n := sizeBytes z.toNat
  s.issueMem x (s.memTrap x n .read (fun _ _ => false)) (fun u =>
    let c := s.crew u.crew
    let act := c.active x u.lanes
    let r := { c.loadReq x u .lda s.cycle with zfield := z.toNat, scope := sc.toNat, acquire := true }
    if act = [] then .next (s.idleLoad x u)
    else
      match s.resolveLanes u (act.map (fun l => (l, c.laneAddr x l))) n .read with
      | .stop t => .next t
      | .ok ts =>
        let (id, s) := s.plainLoad x u { r with lanes := laneReqs s.cycle ts (fun _ => 0) } ts
        .next ((s.start id).beginAcquire u.crew id sc.toNat))

/-- LDK (R147): performed at the home, with the sibling count. -/
def execLdk (px : Option Pfx) (d : BitVec 7) (a : BitVec 7) (h : BitVec 2) (g : BitVec 4) (s : State) : Out :=
  let x : Instr := .ldk px d a h g
  s.issueMem x (s.memTrap x 4 .read (fun _ _ => false)) (fun u =>
    let c := s.crew u.crew
    let act := c.active x u.lanes
    let r := { c.loadReq x u .ldk s.cycle with zfield := 4, hint := h.toNat }
    if act = [] then .next (s.idleLoad x u)
    else
      match s.resolveLanes u (act.map (fun l => (l, c.laneAddr x l))) 4 .read with
      | .stop t => .next t
      | .ok ts =>
        let (id, s) := s.plainLoad x u { r with lanes := laneReqs s.cycle ts (fun _ => 0) } ts
        .next (s.start id))

/-! ## Stores -/

/-- A near-window store to registers whose slot it writes (R27, R92) and any other address are stored alike; a
keep-siblings page has no store narrower than its cells (R283). -/
def narrowKs (n : Nat) (_ : Nat) (t : Target) : Bool := t.ks && decide (n < 4)

/-- A store of whole words to an ordinary device line writes the core's L1 when it issues (R254, R277); one to a
keep-siblings cell invalidates its word there. -/
def State.storeL1 (s : State) (r : Req) : State :=
  let core := (s.crew r.crew).core
  r.lanes.foldl (fun s x =>
    match x.target with
    | some t =>
      match s.cls r x t, t.place with
      | .home, .hbm q a =>
        if t.ks then s.modCore core (fun g => g.l1Drop q a r.size)
        else if t.cache != 0 || t.sh || (s.core core).l1Size = 0 then s
        else
          let alloc := r.allocates && decide (4 ≤ r.size)
          let s := if alloc then s.l1Place core (lineOf q a) (r.hint = 2) else s
          (s.modCore core (fun g => (g.l1Write q a r.size x.data alloc).l1Touch (lineOf q a) r.hint)).l1Tidy core
      | _, _ => s
    | none => s) s

/-- The words that an atomic will change leave the issuer's L1 (R272). -/
def State.dropReqWords (s : State) (r : Req) : State :=
  r.lanes.foldl (fun s x => match x.target with
    | some t => s.dropL1 r.crew t r.size
    | none => s) s

/-- A store to keep-siblings cells invalidates its words in the writer's L1 when it issues (R254). -/
def State.dropKs (s : State) (id : Nat) : State :=
  match s.req id with
  | none => s
  | some r => r.lanes.foldl (fun s x => match x.target with
      | some t => if t.ks then s.dropL1 r.crew t r.size else s
      | none => s) s

/-- The word that a load brought for a lane. -/
def Req.word (r : Req) (l : Nat) : Word :=
  match r.lane l with
  | some x => BitVec.ofNat 32 (loadValue r.zfield x.value)
  | none => 0

/-- Let the head of the egress queue go while its data is known (R93). -/
def State.drainEgress (s : State) (k : Nat) : State :=
  let rec go : Nat → State → State
    | 0, s => s
    | n + 1, s =>
      match (s.crew k).egress with
      | e :: rest =>
        if e.form.isSome then s
        else
          let s := s.modCrew k (fun c => { c with egress := rest })
          let s := s.modReq e.req (fun r => { r with queued := false, issued := s.cycle })
          let s := match s.req e.req with | some r => if r.kind.isStore then s.storeL1 r else s.dropReqWords r | none => s
          go n (s.start e.req)
      | [] => s
  go (s.crew k).egress.length s

/-- A store's request: the data known at issue, or the form of its pending data register (R93). Every store behind a
queued one enters the queue too. -/
def State.storeReq (s : State) (x : Instr) (u : Issue) (r : Req) (ts : List (Nat × Nat × Target)) (b w : Nat) : State :=
  let c := s.crew u.crew
  let act := c.active x u.lanes
  let form := if w = 1 then c.form (c.win b) else none
  -- a symbol that resolves in this cycle has its data (R95)
  let known : Option Req := form.bind (fun f => (c.syms.find? (fun y => y.num = f.sym && y.resolved)).bind (fun y => s.req y.req))
  let data (l : Nat) : Nat := match form, known with
    | some f, some y => (f.value l (y.word l)).toNat
    | some f, none => (f.lane l).offset.toNat
    | none, _ => c.operand (b, w) (0, 0) l
  let form := if known.isSome then none else form
  let queue := form.isSome || c.egress != []
  let c := (c.countReads (info x).readRegs act).dropDeadForms.bump r.release
  let s := s.finish u x c
  let home := match ts with | (_, _, t) :: _ => (match t.place with | .hbm q _ => q | _ => crewSett u.crew) | [] => crewSett u.crew
  let deps := s.overlapDeps u.crew (ts.map (fun t => (t.2.1, r.size))) true
  let deps := if r.release then (s.releaseDeps u.crew) ++ deps else deps
  let (id, s) := s.enter { r with
    lanes := laneReqs s.cycle ts (fun l => data l % 2 ^ (8 * r.size)), queued := queue, deps := deps
    stamp := s.stampOf u.crew home, frontier := c.frontier }.halved
  let s := s.touchTlb c.core (ts.map (fun t => t.2.1))
  if queue then
    ((s.dropKs id).modCrew u.crew (fun c => { c with egress := c.egress ++ [{ req := id, form := form }] })).drainEgress u.crew
  else
    let s := match s.req id with | some r => s.storeL1 r | none => s
    s.start id

/-- ST (R145). -/
def execSt (px : Option Pfx) (z : BitVec 3) (h : BitVec 2) (a : BitVec 7) (b : BitVec 7) (g : BitVec 4) (s : State) : Out :=
  let x : Instr := .st px z h a b g
  let n := sizeBytes z.toNat
  s.issueMem x (s.memTrap x n .write (narrowKs n)) (fun u =>
    let c := s.crew u.crew
    let act := c.active x u.lanes
    let r := { c.loadReq x u .store s.cycle with hint := h.toNat, width := 0 }
    if act = [] then .next (s.finish u x c)
    else
      match s.resolveLanes u (act.map (fun l => (l, c.laneAddr x l))) n .write with
      | .stop t => .next t
      | .ok ts => .next (s.storeReq x u r ts b.toNat (sizeRegs z)))

/-- STL (R146). -/
def execStl (px : Option Pfx) (z : BitVec 3) (sc : BitVec 3) (a : BitVec 7) (b : BitVec 7) (g : BitVec 4) (s : State) : Out :=
  let x : Instr := .stl px z sc a b g
  let n := sizeBytes z.toNat
  s.issueMem x (s.memTrap x n .write (narrowKs n)) (fun u =>
    let c := s.crew u.crew
    let act := c.active x u.lanes
    let r := { c.loadReq x u .stl s.cycle with scope := sc.toNat, release := true, width := 0 }
    if act = [] then .next (s.finish u x c)
    else
      match s.resolveLanes u (act.map (fun l => (l, c.laneAddr x l))) n .write with
      | .stop t => .next t
      | .ok ts => .next (s.storeReq x u r ts b.toNat (sizeRegs z)))

/-! ## Events -/

/-- The frames of a shadowed buffer change places in one step (R173, R269). -/
def State.swapFrames (s : State) (sett buf : Nat) : State :=
  let a := (s.sett sett).base 2 + 8 * buf + 7
  let v := s.hbmRead sett a 1
  s.hbmWrite sett a 1 (putBits v 7 7 (1 - bits v 7 7))

/-- CCTL.evict's lane: the line leaves L1 (R151). A peer sector in IS or ISI makes it wait until the sector leaves that state, and it is
done when the notices that it sent are acknowledged (R403). -/
def State.evictLane (s : State) (id : Nat) (r : Req) (x : LaneReq) (t : Target) : State :=
  let core := (s.crew r.crew).core
  let done (s : State) : State := s.setLane id { x with done := true }
  let wait (s : State) : State := let y := { x with due := s.cycle + 1 }
                                  (s.setLane id y).follow id r [y]
  match s.named (crewSett r.crew) t.place with
  | none => done s
  | some (q, a) =>
    let line := lineOf q a
    let first := sectorOf q (a / 128 * 128)
    let st (y : Nat) : SectorSt := Tab.get .i (s.core core).sectors y
    if q = coreSett core then done (s.l1Evict core line)
    else if [first, first + 1].any (fun y => match st y with | .is | .isi => true | _ => false) then wait s
    else if [first, first + 1].any (fun y => match st y with | .s => true | _ => false) then wait (s.l1Evict core line)
    else if [first, first + 1].any (fun y => match st y with | .si => true | _ => false) then wait s
    else done s

/-- CCTL.evict's lane; PUBL's swaps a buffer's frames. Every other kind stores. -/
def State.writeLane (s : State) (id : Nat) (r : Req) (x : LaneReq) (t : Target) : State :=
  match r.kind, t.place with
  | .evict, _ => s.evictLane id r x t
  | .publ, _ => (s.swapFrames (crewSett r.crew) t.buf).setLane id { x with done := true }
  | _, _ => s.storeLane id r x t

/-- LOAD_DATA_RETURN (R29): a load is performed at its place, and what has arrived reaches the destination. -/
def execLoadDataReturn (req : Nat) (s : State) : Out :=
  .next (((s.arrive req).runLanes req (List.range 32) (fun s r x t => s.loadLane req r x t)).launch req |>.finishReq req)

/-- STRIKE_CLEARANCE (R413). -/
def execStrikeClearance (req : Nat) (s : State) : Out := .next (s.clear req)

/-- STORE_PERFORMED (R277). -/
def execStorePerformed (req : Nat) (s : State) : Out :=
  .next ((((s.runLanes req (List.range 32) (fun s r x t => s.writeLane req r x t)).launch req).finishReq req))

/-- The cycle in which a symbol resolves (R95): the load leaves its counter, captured stores take their data, the egress queue
goes on. An instruction that issues in this cycle still reads the forms (R96); those that stand now are complete. -/
def State.resolveFirst (s : State) (crew sym : Nat) (y : Sym) (r : Req) : State :=
  let c := s.crew crew
  let c := { c with
    forms := c.forms.map (fun (f : Form) => if f.sym = sym then { f with avail := min f.avail s.cycle } else f)
    syms := c.syms.map (fun (z : Sym) => if z.num = sym then { z with resolved := true, until_ := s.cycle + 1 } else z) }
  let c := (c.takeTags r).decr .loads
  let mine (e : Egress) : Bool := match e.form with | some f => f.sym = sym | none => false
  let caught := c.egress.filter mine
  let s := caught.foldl (fun (s : State) (e : Egress) => match e.form with
    | some f => s.modReq e.req (fun q => { q with lanes := q.lanes.map (fun x =>
        { x with data := (f.value x.lane (r.word x.lane)).toNat % 2 ^ (8 * q.size) }) })
    | none => s) s
  let c := { c with egress := c.egress.map (fun (e : Egress) => if mine e then { e with form := none } else e) }
  (s.setCrew crew c).redo c.core (.response y.req r)

/-- The registers of the completed forms are written (R95); a form composed in the cycle of resolution follows when its
composition completes. The symbol is freed once nothing names it (R96, R97). -/
def State.resolveForms (s : State) (crew sym : Nat) (y : Sym) (r : Req) : State :=
  let c := (s.crew crew).resolve sym r.word s.cycle
  let rest := c.forms.filter (fun f => f.sym = sym)
  let until_ := rest.foldl (fun m f => max m f.avail) s.cycle
  let c := { c with syms := c.syms.map (fun (z : Sym) => if z.num = sym then { z with until_ := until_ } else z) }
  let s := s.setCrew crew (c.freeSyms s.cycle)
  if rest = [] then s.setReq y.req none else s.schedule (until_ - s.cycle) 50 (.symbolResolve crew sym)

/-- SYMBOL_RESOLVE (R95 to R97): the symbol resolves, and before the next cycle's issues its registers are written. A crew
without a thread that could still issue has them written at once. -/
def execSymbolResolve (crew : Nat) (sym : Nat) (s : State) : Out :=
  let c := s.crew crew
  match c.syms.find? (fun y => y.num = sym) with
  | none => .next s
  | some y =>
    match s.req y.req with
    | none => .next s
    | some r =>
      if r.lanes.any (fun x => !x.back) then .next s
      else if y.resolved then .next ((s.resolveForms crew sym y r).checkEnd crew)
      else
        let bad := s.readsPoison r
        let s := s.resolveFirst crew sym y r
        let s := if c.threads.all (fun p => p.2.st = .exited) then s.resolveForms crew sym y r
                 else s.schedule 1 50 (.symbolResolve crew sym)
        let s := ((s.drainEgress crew).settleFences crew).checkEnd crew
        .next (match bad with
          | some u => s.consumePoison crew u
          | none => s)

end Sys2Proof.Machine
end

