-- ==== Sys2Proof/Machine/Atomics.lean ====
section
/-! DEFINITION. RCN and RCNX (spec/06, R149, R150), the atomics (R154 to R157), the work-stealing deque (R158 to R160),
and the events that perform them. -/

namespace Sys2Proof.Machine

/-! ## Issue -/

/-- Classes that have no atomics: near-window registers, and host memory where the host enabled no method (R154, R374). -/
def State.noAtomic (s : State) (op : Nat) (va : Nat) (t : Target) : Bool :=
  (isNear va && nearArea va = 0) || (match t.place with | .host _ => s.hostMethod op = 0 | _ => false)

/-- Classes that have no reconcile: the near window and host memory (R150). -/
def noReconcile (va : Nat) (t : Target) : Bool :=
  isNear va || (match t.place with | .host _ => true | _ => false)

/-- A reconcile through a window is performed at .pkg scope at least, whatever its scope field says (R150). -/
def Req.windowScope (r : Req) (ts : List (Nat × Nat × Target)) : Req :=
  match r.kind with
  | .rcn .. => if ts.any (fun t => t.2.2.window.isSome) then { r with scope := max 3 r.scope } else r
  | _ => r

/-- Issue an atomic or a reconcile: as a load that does not defer; a release waits for the crew's earlier accesses, an
acquire holds back the later ones. A RED behind a queued store enters the egress queue (R93). -/
def State.issueAtomic (s : State) (x : Instr) (u : Issue) (r : Req) (acc : Access) (stamped : Bool) (data : Nat → Nat) : State :=
  let c := s.crew u.crew
  let act := c.active x u.lanes
  if act = [] then s.idleLoad x u
  else
    match s.resolveLanes u (act.map (fun l => (l, c.laneAddr x l))) r.size acc with
    | .stop t => t
    | .ok ts =>
      let home := match ts with | (_, _, t) :: _ => (match t.place with | .hbm q _ => q | _ => crewSett u.crew) | [] => crewSett u.crew
      let lanes := laneReqs s.cycle ts data
      let deps := if r.release then s.releaseDeps u.crew else []
      let s := s.modCrew u.crew (fun c => if stamped then c.bump r.release else if r.release then c.bumpRelease else c)
      let queue := isRed x && c.egress != []
      let r := r.windowScope ts
      let (id, s) := s.plainLoad x u { r with lanes := lanes, deps := deps, stamp := s.stampOf u.crew home, frontier := c.frontier, queued := queue } ts
      let s := if queue then s.modCrew u.crew (fun c => { c with egress := c.egress ++ [{ req := id, form := none }] })
               else (match s.req id with | some q => s.dropReqWords q | none => s).start id
      if r.acquire then s.beginAcquire u.crew id r.scope else s

/-- The request of an atomic. -/
def Crew.atomReq (c : Crew) (x : Instr) (u : Issue) (op : Nat) (wide returns order : Bool) (sc now : Nat) : Req :=
  { c.loadReq x u (.atom op wide returns order) now with
    size := if wide then 8 else 4, scope := sc, release := order, acquire := order,
    width := if !returns then 0 else if wide then 2 else 1 }

/-- The operands of an atomic: w below, w' of CAS above it (R155). -/
def Crew.atomData (c : Crew) (x : Instr) (l : Nat) : Nat := c.operand ((info x).srcs[1]?.getD (0, 1)) (0, 0) l

/-- The frame of the four atomics. -/
def atomic (x : Instr) (op : Nat) (wide returns order : Bool) (sc : Nat) (s : State) : Out :=
  s.issueMem x (s.memTrap x (if wide then 8 else 4) .atomic (s.noAtomic op)) (fun u =>
    let c := s.crew u.crew
    .next (s.issueAtomic x u (c.atomReq x u op wide returns order sc s.cycle) .atomic (!returns) (c.atomData x)))

/-- ATOM (R155). -/
def execAtom (px : Option Pfx) (d : BitVec 7) (a : BitVec 7) (o : BitVec 4) (sc : BitVec 3) (g : BitVec 4) (s : State) : Out :=
  atomic (.atom px d a o sc g) o.toNat false true false sc.toNat s

/-- ATOMR (R156). -/
def execAtomr (px : Option Pfx) (d : BitVec 7) (a : BitVec 7) (o : BitVec 4) (sc : BitVec 3) (g : BitVec 4) (s : State) : Out :=
  atomic (.atomr px d a o sc g) o.toNat false true true sc.toNat s

/-- RED (R155). -/
def execRed (px : Option Pfx) (d : BitVec 7) (a : BitVec 7) (o : BitVec 4) (sc : BitVec 3) (g : BitVec 4) (s : State) : Out :=
  atomic (.red px d a o sc g) o.toNat false false false sc.toNat s

/-- ATOM64 (R155). -/
def execAtom64 (px : Option Pfx) (d : BitVec 7) (a : BitVec 7) (o : BitVec 4) (sc : BitVec 3) (g : BitVec 4) (s : State) : Out :=
  atomic (.atom64 px d a o sc g) o.toNat true true false sc.toNat s

/-- The frame of RCN and RCNX (R149): k of PICK and v of SET come from d. -/
def reconcile (x : Instr) (mode : Nat) (wide : Bool) (sc : Nat) (s : State) : Out :=
  s.issueMem x (s.memTrap x 4 .atomic noReconcile) (fun u =>
    let c := s.crew u.crew
    let r := { c.loadReq x u (.rcn mode wide) s.cycle with
      size := 4, scope := sc, release := true, acquire := true, width := if wide then 2 else 1 }
    let k (l : Nat) : Nat := match (info x).srcs[1]? with | some o => c.operand o (0, 0) l | none => 0
    .next (s.issueAtomic x u r .atomic true k))

/-- RCN (R149). -/
def execRcn (px : Option Pfx) (d : BitVec 7) (a : BitVec 7) (m : BitVec 4) (sc : BitVec 3) (g : BitVec 4) (s : State) : Out :=
  reconcile (.rcn px d a m sc g) m.toNat false sc.toNat s

/-- RCNX (R149). -/
def execRcnx (px : Option Pfx) (d : BitVec 7) (a : BitVec 7) (m : BitVec 4) (sc : BitVec 3) (g : BitVec 4) (s : State) : Out :=
  reconcile (.rcnx px d a m sc g) m.toNat true sc.toNat s

/-! ## The deque (R158 to R160) -/

/-- A deque address lies in a scratchpad of the cluster. -/
def State.noDeque (s : State) (k va : Nat) (_ : Target) : Bool := (s.objectAt k va).isNone

/-- The frame of the deque instructions. -/
def dequeInstr (x : Instr) (kind : ReqKind) (s : State) : Out :=
  match s.cur with
  | none => .next s
  | some u0 =>
  s.issueMem x (s.memTrap x 16 .atomic (s.noDeque u0.crew)) (fun u =>
    let c := s.crew u.crew
    let push := decide (kind = .dqPush)
    let r := { c.loadReq x u kind s.cycle with
      scope := 1, release := push, acquire := !push, width := if push then 0 else 2 }
    .next (s.issueAtomic x u r .atomic false (fun l => if push then c.atomData x l else 0)))

/-- DQPUSH (R159). -/
def execDqpush (px : Option Pfx) (a : BitVec 7) (b : BitVec 7) (g : BitVec 4) (s : State) : Out :=
  dequeInstr (.dqpush px a b g) .dqPush s

/-- DQPOP (R159). -/
def execDqpop (px : Option Pfx) (d : BitVec 7) (a : BitVec 7) (g : BitVec 4) (s : State) : Out :=
  dequeInstr (.dqpop px d a g) .dqPop s

/-- DQSTEAL (R159). -/
def execDqsteal (px : Option Pfx) (d : BitVec 7) (a : BitVec 7) (g : BitVec 4) (s : State) : Out :=
  dequeInstr (.dqsteal px d a g) .dqSteal s

/-- A cap that R158 allows: a power of two from 1 to 65,536. -/
def capOk (cap : Nat) : Bool := decide (cap ≤ 65536) && (cap != 0) && 2 ^ Nat.log2 cap = cap

/-- What a deque step does to the header and the entries: the new header, an entry to write (index, value), and the
result (value, success). -/
structure DequeStep where
  header : Nat
  write : Option (Nat × Nat) := none
  /-- the entry to read as the result -/
  entry : Option Nat := none
deriving DecidableEq, Repr

/-- One step on a header (R158, R159); `kind` 0 push, 1 pop, 2 steal. -/
def dequeStepOf (kind header v : Nat) : DequeStep :=
  let cap := bits header 95 64
  let bottom := bits header 63 32
  let top := bits header 31 0
  let n := (bottom + 2 ^ 32 - top) % 2 ^ 32
  let bad := header.testBit 97 || !capOk cap
  let header := putBits (putBits header 127 98 0) 97 97 (if bad then 1 else 0)
  match kind with
  | 0 =>
    if bad || n = cap then { header := putBits header 96 96 1 }
    else { header := putBits header 63 32 (bottom + 1), write := some (bottom % cap, v) }
  | 1 =>
    if bad || n = 0 then { header := header }
    else
      let b := (bottom + 2 ^ 32 - 1) % 2 ^ 32
      { header := putBits header 63 32 b, entry := some (b % cap) }
  | _ =>
    if bad || n = 0 then { header := header }
    else { header := putBits header 31 0 (top + 1), entry := some (top % cap) }

/-- Write to a scratchpad through the hub: an outside input of the owner core's journal (R417). -/
def State.hubWrite (s : State) (r : Req) (va n v : Nat) : State × NearFlags :=
  let core := (s.crew r.crew).core
  let (s, f) := s.nearWrite r.crew core (va % 2 ^ 24) v n
  (match s.nearPlace r.crew core (va % 2 ^ 24) with
    | some (.pad b o) => s.redo (nearCore core (va % 2 ^ 24)) (.pad 0 b o n v)
    | _ => s, f)

/-- One lane's deque step. -/
def State.dequeLane (s : State) (id : Nat) (r : Req) (x : LaneReq) : State :=
  let core := (s.crew r.crew).core
  let kind := match r.kind with | .dqPush => 0 | .dqPop => 1 | _ => 2
  let (header, f) := s.nearRead r.crew core (x.va % 2 ^ 24) 16
  let d := dequeStepOf kind header x.data
  let (s, _) := s.hubWrite r x.va 16 d.header
  let s := match d.write with
    | some (i, v) => (s.hubWrite r (x.va + 16 + 4 * i) 4 v).1
    | none => s
  let (v, ok) := match d.entry with
    | some i => ((s.nearRead r.crew core ((x.va + 16 + 4 * i) % 2 ^ 24) 4).1, 1)
    | none => (0, 0)
  let s := s.noteReq id f
  -- a push tags the header's word, a pop or steal reads it (R285, R286)
  let place := x.target.map Target.place
  let s := if kind = 0 then s.tagPad place 4 r.stamp.ident r.stamp.epoch
           else s.modReq id (fun y => { y with tags := y.tags ++ s.padTags place 4 })
  let y := { x with done := true, value := v, aux := ok, due := s.cycle + 24 }
  (s.setLane id y).follow id r [y]

/-- Order of two deque steps (class, core, lane, request): R160's; of one lane of two crews of a core, the older request. -/
def dequeBefore (a b : Nat × Nat × Nat × Nat) : Bool :=
  decide (a.1 < b.1) || (a.1 = b.1 && (decide (a.2.1 < b.2.1) || (a.2.1 = b.2.1 &&
    (decide (a.2.2.1 < b.2.2.1) || (a.2.2.1 = b.2.2.1 && decide (a.2.2.2 ≤ b.2.2.2))))))

/-- Deque steps that have reached a cluster's hub, in the order of R160: (class, core, lane, request). -/
def State.dequeReady (s : State) (hub : Nat) : List (Nat × Nat × Nat × Nat) :=
  let all := s.reqs.flatMap (fun p => match p.2 with
    | none => []
    | some r =>
      let g := (s.crew r.crew).core
      let k := match r.kind with | .dqPush => some 0 | .dqPop => some 1 | .dqSteal => some 2 | _ => none
      match k with
      | some k => if g / 4 = hub then (r.lanes.filter (fun x => x.out && x.free && !x.done && decide (x.due ≤ s.cycle))).map
                    (fun x => (k, g, x.lane, p.1)) else []
      | none => [])
  sortBy dequeBefore all

/-! ## Events -/

/-- ATOMIC_STEP (R155, R157): the lanes of one instruction on one word are taken in ascending order. -/
def execAtomicStep (req : Nat) (lane : Nat) (s : State) : Out :=
  let op := match s.req req with | some r => (match r.kind with | .atom op _ _ _ => op | _ => 0) | none => 0
  .next (((((s.arrive req).runLanes req [lane] (fun s r x t => s.atomicLane req r x t op)).launch req).finishReq req))

/-- RECONCILE_STEP (R149, R294). -/
def execReconcileStep (req : Nat) (lane : Nat) (s : State) : Out :=
  let mode := match s.req req with | some r => (match r.kind with | .rcn m _ => m | _ => 0) | none => 0
  .next (((((s.arrive req).runLanes req [lane] (fun s r x t => s.reconcileLane req r x t mode)).launch req).finishReq req))

/-- DEQUE_STEP (R160): the hub of cluster `hub` (core ÷ 4) takes the steps that have reached it. -/
def execDequeStep (hub : Nat) (s : State) : Out :=
  let steps := s.dequeReady hub
  let ids := ((s.reqs.filter (fun p => match p.2 with
    | some r => (match r.kind with | .dqPush | .dqPop | .dqSteal => (s.crew r.crew).core / 4 = hub | _ => false)
    | none => false)).map Prod.fst)
  let s := steps.foldl (fun s e => s.runLanes e.2.2.2 [e.2.2.1] (fun s r x _ => s.dequeLane e.2.2.2 r x)) s
  .next (ids.foldl (fun s id => (((s.arrive id).launch id).finishReq id)) s)

/-- HOST_ATOMIC_CAS_RESPONSE (R374): the loop ends with the old value, or tries again with the value it got. -/
def execHostAtomicCasResponse (req : Nat) (value : Nat) (s : State) : Out :=
  match s.req req with
  | none => .next s
  | some r =>
    match r.lanes.find? (fun x => x.wait && !x.done) with
    | none => .next s
    | some x =>
      if value = x.aux then
        let y := { x with wait := false, done := true, value := value, due := s.cycle + 75 }
        .next (((s.setLane req y).follow req r [y]).finishReq req)
      else
        let sett := crewSett r.crew
        let n := min (2 ^ 64 - 1) ((s.sett sett).retryCnt + 1)
        let s := s.modSett sett (fun t => { t with retryCnt := n })
        let s := if n % 2 ^ 16 = 0 then s.raise sett 3 else s
        match x.target, r.kind with
        | some t, .atom op _ _ _ =>
          (match t.place with
            | .host a => .next (s.hostCas req r x a op value)
            | _ => .next s)
        | _, _ => .next s

end Sys2Proof.Machine
end

