-- ==== Sys2Proof/Machine/Sync.lean ====
section
/-! DEFINITION. BINIT, ARV, BEXP, WAITP and TRYW (spec/06, R161 to R165; spec/10, R255 to R260), and the events that
update objects and resume waiters. -/

namespace Sys2Proof.Machine

/-! ## Updates -/

/-- An object's address lies in a scratchpad of the cluster. -/
def State.noObject (s : State) (k va : Nat) (_ : Target) : Bool := (s.objectAt k va).isNone

/-- Issue a barrier instruction: gap objects only set gap in STATUS, the others get one update per lane (R161, R164). -/
def State.issueBarrier (s : State) (x : Instr) (u : Issue) (kind : ReqKind) (scope : Nat) (data : Nat → Nat) : State :=
  let c := s.crew u.crew
  let act := c.active x u.lanes
  let gaps := act.filter (fun l => s.objectAt u.crew (c.laneAddr x l) = some none)
  let objs := act.filterMap (fun l =>
    let va := c.laneAddr x l
    match s.objectAt u.crew va with
    | some (some (b, o)) => some (l, va, ({ place := .pad b o } : Target))
    | _ => none)
  let release := decide (kind = .arv false)
  let c' := c.countReads (info x).readRegs act
  let c' := if gaps = [] then c' else c'.setStatus .gap
  let c' := if release && act != [] then c'.bumpRelease else c'
  let deps := s.overlapDeps u.crew (objs.map (fun t => (t.2.1, 16))) true ++ (if release then s.releaseDeps u.crew else [])
  let s := s.finish u x c'
  let own (t : Nat × Nat × Target) : Bool := nearCore c.core (t.2.1 % 2 ^ 24) = c.core
  let remote := objs.any (fun t => !own t)
  -- the updates of the own core's objects and those that go through the hub (R257)
  [objs.filter own, objs.filter (fun t => !own t)].foldl (fun s part =>
    if part = [] then s
    else
      let (id, s) := s.enter { c.loadReq x u kind s.cycle with
        size := 16, width := 0, scope := if remote && release then max 1 scope else scope, release := release
        lanes := laneReqs s.cycle part data, deps := deps, stamp := s.stampOf u.crew (crewSett u.crew) }
      s.start id) s

/-- The frame of BINIT, ARV and BEXP. -/
def barrierInstr (x : Instr) (kind : ReqKind) (scope : Nat) (data : Crew → Nat → Nat) (s : State) : Out :=
  match s.cur with
  | none => .next s
  | some u0 =>
    s.issueMem x (s.memTrap x 16 .write (s.noObject u0.crew)) (fun u =>
      .next (s.issueBarrier x u kind scope (data (s.crew u.crew))))

/-- BINIT (R161). -/
def execBinit (px : Option Pfx) (a : BitVec 7) (b : BitVec 7) (g : BitVec 4) (s : State) : Out :=
  barrierInstr (.binit px a b g) .binit 0 (fun c l => c.operand (b.toNat, 2) (0, 0) l) s

/-- ARV (R161, R162). -/
def execArv (px : Option Pfx) (a : BitVec 7) (r : BitVec 1) (sc : BitVec 3) (g : BitVec 4) (s : State) : Out :=
  barrierInstr (.arv px a r sc g) (.arv (r = 1)) sc.toNat (fun _ _ => 0) s

/-- BEXP (R161). -/
def execBexp (px : Option Pfx) (a : BitVec 7) (b : BitVec 7) (g : BitVec 4) (s : State) : Out :=
  barrierInstr (.bexp px a b g) .bexp 0 (fun c l => c.operand (b.toNat, 1) (0, 0) l) s

/-- Code of an update in a journal (R417). -/
def BarUpdate.code : BarUpdate → Nat × Nat
  | .init a b => (0, a + 2 ^ 32 * b)
  | .arrive => (1, 0)
  | .expect n => (2, n)
  | .land n => (3, n)
  | .break_ => (4, 0)

def BarUpdate.ofCode (k n : Nat) : BarUpdate :=
  match k with
  | 0 => .init (n % 2 ^ 32) (n / 2 ^ 32)
  | 1 => .arrive
  | 2 => .expect n
  | 3 => .land n
  | _ => .break_

/-- One lane's update reaches its object (R257); from another core it is an outside input of the owner. -/
def State.barrierLane (s : State) (id : Nat) (r : Req) (x : LaneReq) : State :=
  let core := (s.crew r.crew).core
  let own := nearCore core (x.va % 2 ^ 24) = core
  let s := s.setLane id { x with done := true }
  match s.objectAt r.crew x.va with
  | some (some (b, o)) =>
    let u : BarUpdate := match r.kind with
      | .binit => .init (x.data % 2 ^ 32) (x.data / 2 ^ 32)
      | .bexp => .expect x.data
      | _ => .arrive
    let s := if own then s else s.redo (s.block b).core (.barrier 0 b o u.code.1 u.code.2)
    s.updateBarrier b o u own
  | _ => s.modCrew r.crew (fun c => c.setStatus .gap)

/-- BARRIER_UPDATE (R257). -/
def execBarrierUpdate (upd : Nat) (s : State) : Out :=
  .next (((s.runLanes upd (List.range 32) (fun s r x _ => s.barrierLane upd r x)).launch upd).finishReq upd)

/-! ## Waits -/

/-- What a wait sees of its object: nothing yet, or the pair's value; `none` inside means a gap. -/
inductive Seen where
  | wait
  | ended (completed : Bool)
  | gap
deriving DecidableEq, Repr

/-- The test of R164 for a waiter of crew k; an object of another core shows only what can no longer be undone
(R418). -/
def State.seen (s : State) (k va phase : Nat) : Seen :=
  match s.objectAt k va with
  | some (some (b, o)) =>
    let x := s.barrier b o
    if !x.ended phase then .wait
    else if (s.block b).core != (s.crew k).core && s.tooYoung k (s.crew k).core (va % 2 ^ 24) 16 then .wait
    else .ended (!x.broken)
  | _ => .gap

/-- TRYW's deadline has passed (R165). -/
def State.passed (s : State) (sett deadline : Nat) : Bool :=
  decide ((s.time sett % 2 ^ 32 + 2 ^ 32 - deadline % 2 ^ 32) % 2 ^ 32 < 2 ^ 31)

/-- Issue a wait: lanes whose object's phase has ended, whose object lies in a gap, or whose deadline has passed get
their pair at once, the others wait at the instruction. -/
def State.issueWait (s : State) (x : Instr) (u : Issue) (pair : Nat) (phase : Nat → Nat) (deadline : Nat → Option Nat) : State :=
  let c := s.crew u.crew
  let act := c.active x u.lanes
  let look := act.map (fun l => (l, s.seen u.crew (c.laneAddr x l) (phase l)))
  let late (l : Nat) : Bool := match deadline l with | some d => s.passed (crewSett u.crew) d | none => false
  let c1 := c.countReads (info x).readRegs act
  let c1 := if look.any (fun p => p.2 = .gap) then c1.setStatus .gap else c1
  let c1 := look.foldl (fun c p =>
    match p.2 with
    | .ended ok => c.writePair p.1 pair ok
    | .gap => c.writePair p.1 pair false
    | .wait => if late p.1 then c.writePair p.1 pair false else c) c1
  let c1 := (c.zeroed x u.lanes).foldl (fun c l => c.clearPair l pair) c1
  let s := s.finish u x c1
  let s := look.foldl (fun s p =>
    if p.2 = .wait && !late p.1 then
      let w : WaitOn := { obj := c.laneAddr x p.1, phase := phase p.1, pair := pair, deadline := deadline p.1, next := nextPc u x }
      let s := s.modCrew u.crew (fun c => c.modThread p.1 (fun t => { t with pc := u.pc, st := .waiting w }))
      let s := match deadline p.1 with
        | some d => s.schedule ((d % 2 ^ 32 + 2 ^ 32 - s.time (crewSett u.crew) % 2 ^ 32) % 2 ^ 32) 62 (.trywDeadline u.crew p.1)
        | none => s
      match s.objectAt u.crew w.obj with
      | some (some (b, o)) => if (s.barrier b o).ended w.phase then s.schedule 48 60 (.waiterResume u.crew p.1) else s
      | _ => s
    else s) s
  if look.any (fun p => p.2 = .ended true) then s.selfInvalidate c.core else s

/-- The frame of WAITP and TRYW. -/
def waitInstr (x : Instr) (pair : Nat) (phase : Crew → Nat → Nat) (deadline : Crew → Nat → Option Nat) (s : State) : Out :=
  match s.cur with
  | none => .next s
  | some u0 =>
    s.issueMem x (s.memTrap x 16 .read (s.noObject u0.crew)) (fun u =>
      .next (s.issueWait x u pair (phase (s.crew u.crew)) (deadline (s.crew u.crew))))

/-- WAITP (R164). -/
def execWaitp (px : Option Pfx) (p : BitVec 3) (a : BitVec 7) (b : BitVec 7) (g : BitVec 4) (s : State) : Out :=
  waitInstr (.waitp px p a b g) p.toNat (fun c l => c.operand (b.toNat, 1) (0, 0) l % 2 ^ 16) (fun _ _ => none) s

/-- TRYW (R165). -/
def execTryw (px : Option Pfx) (p : BitVec 3) (a : BitVec 7) (b : BitVec 7) (g : BitVec 4) (s : State) : Out :=
  waitInstr (.tryw px p a b g) p.toNat (fun c l => c.operand (b.toNat, 1) (0, 0) l % 2 ^ 16)
    (fun c l => some (c.operand (b.toNat, 2) (0, 0) l / 2 ^ 32)) s

/-- A waiting thread resumes with its pair (R164, R165). -/
def State.resume (s : State) (k l : Nat) (w : WaitOn) (v : Bool) : State :=
  let s := s.modCrew k (fun c => (c.writePair l w.pair v).modThread l (fun t =>
    { t with pc := w.next, st := .ready, wait := 0, due := s.cycle }))
  let s := s.wakeCore (s.crew k).core
  if v then s.selfInvalidate (s.crew k).core else s

/-- WAITER_RESUME (R259): the waiter looks at its object again. -/
def execWaiterResume (crew : Nat) (lane : Nat) (s : State) : Out :=
  if (s.crew crew).stopped then .next s else
  match ((s.crew crew).thread lane).st with
  | .waiting w =>
    match s.seen crew w.obj w.phase with
    | .ended ok => .next (s.resume crew lane w ok)
    | .gap => .next (s.resume crew lane w false)
    | .wait =>
      match s.objectAt crew w.obj with
      | some (some (b, o)) =>
        if (s.barrier b o).ended w.phase then .next (s.schedule 1 60 (.waiterResume crew lane)) else .next s
      | _ => .next s
  | _ => .next s

/-- TRYW_DEADLINE (R165): at the deadline the wait ends, with what the object shows: a phase that ended before it has come
first. -/
def execTrywDeadline (crew : Nat) (lane : Nat) (s : State) : Out :=
  if (s.crew crew).stopped then .next s else
  match ((s.crew crew).thread lane).st with
  | .waiting w =>
    match w.deadline with
    | some d =>
      if s.passed (crewSett crew) d then
        .next (s.resume crew lane w (match s.seen crew w.obj w.phase with | .ended ok => ok | _ => false))
      else .next s
    | none => .next s
  | _ => .next s

/-- SLEEP_EXPIRY (R180). -/
def execSleepExpiry (crew : Nat) (lane : Nat) (s : State) : Out :=
  if (s.crew crew).stopped then .next s else
  match ((s.crew crew).thread lane).st with
  | .sleeping until_ _ next =>
    if until_ ≤ s.cycle then
      .next ((s.modCrew crew (fun c => c.modThread lane (fun t =>
        { t with pc := next, st := .ready, wait := 0, due := s.cycle }))).wakeCore (s.crew crew).core)
    else .next s
  | _ => .next s

end Sys2Proof.Machine
end

