-- ==== Sys2Proof/Machine/Cache.lean ====
section
/-! DEFINITION. CCTL, PREF and FENCE (spec/06, R151 to R153). -/

namespace Sys2Proof.Machine

/-! ## CCTL (R151) -/

/-- Line of a lane's address where its translation is at hand and names device or peer memory. -/
def State.lineAt (s : State) (k va : Nat) : Option (Nat × Target) :=
  if isNear va then none
  else match s.translate (crewSett k) (s.crew k).core va 1 .read with
    | .ok t => (s.named (crewSett k) t.place).map (fun p => (lineOf p.1 p.2, t))
    | _ => none

/-- Lines of the active lanes. -/
def State.linesOf (s : State) (x : Instr) (u : Issue) : List (Nat × Nat × Target) :=
  let c := s.crew u.crew
  (c.active x u.lanes).filterMap (fun l => (s.lineAt u.crew (c.laneAddr x l)).map (fun n => (l, n.1, n.2)))

/-- The words of one line that the core has not registered leave L1; peer sectors count as registered (R361). -/
def State.invalidateLine (s : State) (g line : Nat) : State :=
  if line / 2 ^ 40 != coreSett g then s
  else
    let drop (x : L1Line) : L1Line :=
      if x.line != line then x else { x with words := x.words.filter (fun w => s.registeredBy g x.line w.1) }
    s.modCore g (fun c => { c with l1 := (c.l1.map drop).filter (fun x => x.words != []) })

/-- The reads of an instruction whose lanes it only addresses with. -/
def State.finishReads (s : State) (u : Issue) (x : Instr) : State :=
  let c := s.crew u.crew
  s.finish u x (c.countReads (info x).readRegs (c.active x u.lanes))

/-- CCTL.inv. -/
def execCctlInv (px : Option Pfx) (a : BitVec 7) (g : BitVec 4) (s : State) : Out :=
  let x : Instr := .cctlInv px a g
  s.issueMem x (fun _ => none) (fun u =>
    .next ((s.linesOf x u).foldl (fun s n => s.invalidateLine (s.crew u.crew).core n.2.1) (s.finishReads u x)))

/-- CCTL.invall. -/
def execCctlInvall (px : Option Pfx) (g : BitVec 4) (s : State) : Out :=
  let x : Instr := .cctlInvall px g
  s.issueMem x (fun _ => none) (fun u =>
    let c := s.crew u.crew
    let s := s.finish u x c
    .next (if c.active x u.lanes = [] then s else s.selfInvalidate c.core))

/-- CCTL.demote. -/
def execCctlDemote (px : Option Pfx) (a : BitVec 7) (g : BitVec 4) (s : State) : Out :=
  let x : Instr := .cctlDemote px a g
  s.issueMem x (fun _ => none) (fun u =>
    .next ((s.linesOf x u).foldl (fun s n => s.modCore (s.crew u.crew).core (fun g => g.l1Touch n.2.1 1)) (s.finishReads u x)))

/-- CCTL.evict: counted until the words are performed at the home. -/
def execCctlEvict (px : Option Pfx) (a : BitVec 7) (g : BitVec 4) (s : State) : Out :=
  let x : Instr := .cctlEvict px a g
  s.issueMem x (fun _ => none) (fun u =>
    let c := s.crew u.crew
    let ls := (s.linesOf x u).filter (fun n => ((s.core c.core).line n.2.1).isSome)
    let s := s.finishReads u x
    if ls = [] then .next s
    else
      let (id, s) := s.enter { c.loadReq x u .evict s.cycle with
        size := 1, width := 0
        lanes := laneReqs s.cycle (ls.map (fun n => (n.1, c.laneAddr x n.1, n.2.2))) (fun _ => 0) }
      .next (s.start id))

/-! ## PREF (R152) -/

/-- PREF: a request that writes no register. Lanes on a miss of the TLB wait for the walk; a translation fault drops its lanes. -/
def execPref (px : Option Pfx) (a : BitVec 7) (h : BitVec 2) (g : BitVec 4) (s : State) : Out :=
  let x : Instr := .pref px a h g
  s.issueMem x (fun _ => none) (fun u =>
    let c := s.crew u.crew
    let far := ((c.active x u.lanes).map (fun l => (l, c.laneAddr x l))).filter (fun p => !isNear p.2)
    let rs := far.map (fun p => (p.1, p.2, s.translateFor u.crew p.2 1 .read))
    let fetched (t : Target) : Bool := match t.place with | .hbm .. => true | .remote .. => true | _ => false
    let rs := rs.filter (fun r => match r.2.2 with | .ok t => fetched t | _ => true)
    let s := s.finishReads u x
    if h = 3 then .next s
    else
      if rs = [] then .next s
      else
        let (id, s) := s.enter { c.loadReq x u .pref s.cycle with
          size := 1, width := 0, hint := h.toNat
          lanes := rs.map (fun r =>
            { lane := r.1, va := r.2.1, target := (match r.2.2 with | .ok t => some t | _ => none), due := s.cycle }) }
        .next (s.seekLanes id (rs.map (fun r => r.2))))

/-! ## FENCE (R153) -/

/-- A fence's conditions on a crew's later accesses. -/
def State.fence (s : State) (k order scope : Nat) : State :=
  let c := s.crew k
  let wide := if 3 ≤ scope then 1 else 0
  let early := (s.releaseDeps k).map (fun n => 2 * n + wide)
  let loads := (((s.crewReqs k).filter (fun p => p.2.kind.returns)).map Prod.fst)
  let rel := order != 1
  let acq := order != 2
  let c := if rel then { c.bumpRelease with fenceStores := c.fenceStores ++ early, fenceSys := c.fenceSys || decide (4 ≤ scope) } else c
  let c := if order = 0 then { c with fenceAll := c.fenceAll ++ early } else c
  let c := if acq then
      { c with
        fenceLoads := c.fenceLoads ++ loads.map (2 * ·)
        selfInval := c.selfInval || scope != 0
        frontier := c.held.foldl (fun f p => f.add p) c.frontier
        held := [] }
    else c
  let s := s.setCrew k c
  let s := if acq then loads.foldl (fun s id => s.modReq id (fun r => { r with acquire := true })) s else s
  s.settleFences k

/-- FENCE (R153). -/
def execFence (px : Option Pfx) (o : BitVec 2) (sc : BitVec 3) (g : BitVec 4) (s : State) : Out :=
  let x : Instr := .fence px o sc g
  s.issueMem x (fun _ => none) (fun u =>
    let c := s.crew u.crew
    let s := s.finish u x c
    .next (if c.active x u.lanes = [] then s else s.fence u.crew o.toNat sc.toNat))

end Sys2Proof.Machine
end

