-- ==== Sys2Proof/Machine/Sched.lean ====
section
/-! DEFINITION. The issue scheduler's events (spec/01, R18 to R21), gating and the residency timer (spec/10, R261 to R263;
spec/22, R431), delivery of deferred traps (spec/15, R348), and what a core does in every cycle. -/

namespace Sys2Proof.Machine

/-! ## The active set (R18, R19) -/

/-- DEFERRED_TRAP_DELIVERY (R348): outside handler mode the crew takes the first trap of its list. -/
def execDeferredTrapDelivery (crew : Nat) (s : State) : Out := .next (s.deliverDeferred crew)

/-- PATH_PROMOTION (R21): the wait counter of a ready thread reaches 64. -/
def execPathPromotion (crew : Nat) (lane : Nat) (s : State) : Out :=
  .next (if ((s.crew crew).thread lane).wait = 63 then
      s.modCrew crew (fun c => c.modThread lane (fun t => { t with wait := 64 }))
    else s)

/-- ACTIVE_SET_RESIDENCY_EXPIRY (R18): a crew of 4096 cycles' residence leaves where a ready one waits. -/
def execActiveSetResidencyExpiry (core : Nat) (entry : Nat) (s : State) : Out :=
  match (s.core core).entry entry with
  | some a => .next (if a.entered + 4096 ≤ s.cycle && s.readyOutside core != [] then s.leaveActive a.crew else s)
  | none => .next s

/-- The ready crew outside the set that became ready earliest, one that no cycle's end has noted yet in this cycle; ties by crew
number, CREWID within the block keys (R18). -/
def State.nextCrew (s : State) (core : Nat) : Option Nat :=
  let since (k : Nat) : Nat := if (s.crew k).readyAt = 0 then s.cycle + 1 else (s.crew k).readyAt
  (s.readyOutside core).foldl (fun (best : Option Nat) k =>
    match best with
    | none => some k
    | some b => if since k < since b then some k else some b) none

/-- ACTIVE_SET_FILL (R18): a free entry takes a crew; entering takes one cycle. -/
def execActiveSetFill (core : Nat) (entry : Nat) (s : State) : Out :=
  let g := s.core core
  if (g.entry entry).isSome || decide (s.cycle < Tab.get 0 g.entryBusy entry) || decide (15 < entry) then .next s
  else match s.nextCrew core with
    | none => .next s
    | some k => .next (s.modCore core (fun g => { g with
        active := Tab.set none g.active entry (some ⟨k, s.cycle⟩)
        entryBusy := Tab.set 0 g.entryBusy entry (s.cycle + 1) }))

/-- None of a crew's threads can become ready without an event from outside (R18). -/
def State.crewStuck (s : State) (k : Nat) : Bool :=
  let c := s.crew k
  c.threads.all (fun p => match p.2.st with
    | .exited | .waiting _ | .parked => true
    | .sleeping _ _ _ => false
    | .ready => false) || s.crewParked k ||
  ((c.standing s.cycle) != [] && c.threads.all (fun p => match p.2.st with
      | .sleeping _ _ _ => false
      | .ready => decide (p.2.due ≤ s.cycle)
      | _ => true) &&
    (c.standing s.cycle).all (fun p => match s.fetch k p.1.toNat with
      | .instr i => c.formHolds i p.2
      | _ => false))

/-! ## Gating (R261 to R263, R431) -/

/-- Every thread that has not exited, in every crew of the core, waits or sleeps (R261). -/
def State.idleWaiting (s : State) (core : Nat) : Bool :=
  let ks := s.crewsOn core
  ks != [] && ks.all (fun k => (s.crew k).threads.all (fun p => match p.2.st with
    | .exited | .waiting _ | .sleeping _ _ _ => true
    | _ => false)) && !ks.any s.crewParked

/-- The residency timer of a core. -/
def State.idleTime (s : State) (core : Nat) : Nat :=
  match (s.core core).idleFrom with | none => 0 | some f => s.cycle - f

/-- IDLE_CLOCK_GATE (R261). -/
def execIdleClockGate (core : Nat) (s : State) : Out :=
  .next (if (s.core core).gate = 0 && decide (2 ^ 12 ≤ s.idleTime core) then s.modCore core (fun g => { g with gate := 1 }) else s)

/-- Earliest end of a TRYW or SLEEP on a core (R262). -/
def State.nextDeadline (s : State) (core : Nat) : Option Nat :=
  ((s.crewsOn core).flatMap (fun k => (s.crew k).threads.filterMap (fun p => match p.2.st with
    | .sleeping u _ _ => some u
    | .waiting w => w.deadline.map (fun d => s.cycle + (d % 2 ^ 32 + 2 ^ 32 - s.time (crewSett k) % 2 ^ 32) % 2 ^ 32)
    | _ => none))).foldl (fun m d => match m with | none => some d | some e => some (min d e)) none

/-- IDLE_POWER_GATE (R261): it waits for the copy engine and the sequencer; every crew leaves the active set. -/
def execIdlePowerGate (core : Nat) (s : State) : Out :=
  let g := s.core core
  if s.idleTime core < 2 ^ 20 || g.gate = 2 then .next s
  else if g.copies != [] || g.seq != [] then .next (s.schedule 16 5 (.idlePowerGate core))
  else
    let s := (g.active.filterMap (fun p => p.2.map Active.crew)).foldl (fun s k => s.leaveActive k) s
    let s := s.modCore core (fun g => { g with gate := 2 })
    .next (match s.nextDeadline core with
      | some d => s.schedule (d - 1700 - s.cycle) 4 (.deadlinePreWake core)
      | none => s)

/-- CORE_WAKE (R262). -/
def execCoreWake (core : Nat) (s : State) : Out :=
  .next (if (s.core core).gate = 3 then s.modCore core (fun g => { g with gate := 0 }) else s)

/-- DEADLINE_PRE_WAKE (R262): a power-gated core starts to wake 1,700 cycles before its next deadline. -/
def execDeadlinePreWake (core : Nat) (s : State) : Out :=
  .next (if (s.core core).gate = 2 then s.wakeCore core else s)

/-- Gangs with a crew that waits on a core, with the first such crew: (crew, awaited object, phase). -/
def State.waitingGangs (s : State) (core : Nat) : List (Nat × Nat × Nat) :=
  let ws := (s.crewsOn core).filterMap (fun k =>
    ((s.crew k).threads.findSome? (fun p => match p.2.st with
      | .waiting w => some (k, w.obj, w.phase)
      | _ => none)))
  ws.foldl (fun acc w => if acc.any (fun x => crewRec x.1 = crewRec w.1) then acc else acc ++ [w]) []

/-- Report the gangs whose threshold the residency timer has reached and that have not been reported (R263). -/
def State.reportWaits (s : State) (core : Nat) (second : Bool) : List Nat × State :=
  let which := if second then 2 else 1
  let due := (s.waitingGangs core).filter (fun w =>
    let x := s.record (crewSett w.1) (crewRec w.1)
    decide (2 ^ (if second then x.th2 else x.th1) ≤ s.idleTime core) &&
    !(s.core core).reported.contains (crewRec w.1, which))
  (due.map (fun w => crewRec w.1), due.foldl (fun s w =>
    let s := s.report (coreSett core) { kind := if second then 8 else 7, addr := w.2.1, gangRec := crewRec w.1,
                                        block := blockId (crewBlock w.1), crew := w.1 % 32, core := core, phase := w.2.2 }
    s.modCore core (fun g => { g with reported := g.reported ++ [(crewRec w.1, which)] })) s)

/-- LONG_WAIT_THRESHOLD (R263, R431). -/
def execLongWaitThreshold (core : Nat) (s : State) : Out := .next (s.reportWaits core false).2

/-- HANG_SUSPECT_THRESHOLD (R263, R431): the gangs are reported and killed. -/
def execHangSuspectThreshold (core : Nat) (s : State) : Out :=
  let (rs, s) := s.reportWaits core true
  .next (rs.foldl (fun s r => s.killGang (coreSett core) r) s)

/-! ## What a core does in every cycle -/

/-- Exchange of crews: what leaves or enters the active set falls due in this cycle (R18). -/
def State.exchange (s : State) (core : Nat) : State :=
  let g := s.core core
  if !g.issues then s
  else
    let out := s.readyOutside core
    let s := g.active.foldl (fun s p => match p.2 with
      | some a =>
        if s.crewStuck a.crew then s.leaveActive a.crew
        else if out != [] && decide (a.entered + 4096 ≤ s.cycle) then s.schedule 0 6 (.activeSetResidencyExpiry core p.1)
        else s
      | none => s) s
    let free := (List.range 16).filter (fun e => ((s.core core).entry e).isNone &&
      decide (Tab.get 0 (s.core core).entryBusy e ≤ s.cycle))
    (free.take out.length).foldl (fun s e => s.schedule 0 7 (.activeSetFill core e)) s

/-- Crews outside the active set note when they became ready (R18): the cycle plus one, 0 while they are not. -/
def State.noteReady (s : State) (core : Nat) : State :=
  let out := s.readyOutside core
  (s.crewsOn core).foldl (fun s k =>
    let r := (s.crew k).readyAt
    if out.contains k then (if r = 0 then s.modCrew k (fun c => { c with readyAt := s.cycle + 1 }) else s)
    else if r = 0 then s else s.modCrew k (fun c => { c with readyAt := 0 })) s

/-- The idle state of R261 begins or is broken; its steps and the thresholds of R263 fall due from its beginning. -/
def State.noteIdle (s : State) (core : Nat) : State :=
  let g := s.core core
  if !s.idleWaiting core then
    if g.idleFrom.isNone then s else s.modCore core (fun g => { g with idleFrom := none, reported := [] })
  else if g.idleFrom.isSome then s
  else
    let s := s.modCore core (fun g => { g with idleFrom := some s.cycle })
    let s := (s.schedule (2 ^ 12) 5 (.idleClockGate core)).schedule (2 ^ 20) 5 (.idlePowerGate core)
    let xs := (s.waitingGangs core).map (fun w => s.record (crewSett w.1) (crewRec w.1))
    let s := (xs.map LaunchRec.th1).eraseDups.foldl (fun s t => s.schedule (2 ^ t) 8 (.longWaitThreshold core)) s
    (xs.map LaunchRec.th2).eraseDups.foldl (fun s t => s.schedule (2 ^ t) 9 (.hangSuspectThreshold core)) s

/-- The wait counters of R21: threads of active crews that are ready and do not issue in this cycle count on; a count
of 63 is raised by the event of its promotion. -/
def State.countWaits (s : State) (core : Nat) (turn : List Issue) : State :=
  (s.core core).active.foldl (fun s p => match p.2 with
    | none => s
    | some a =>
      let issued := turn.filter (fun u => u.crew = a.crew)
      let late := (s.paths a.crew).filter (fun q => !issued.any (fun u => u.pc = q.1))
      late.foldl (fun s q => (lanesOf q.2).foldl (fun s l =>
        if ((s.crew a.crew).thread l).wait = 63 then s.schedule 0 8 (.pathPromotion a.crew l)
        else s.modCrew a.crew (fun c => c.modThread l (fun t => { t with wait := t.wait + 1 }))) s) s) s

end Sys2Proof.Machine
end

