-- ==== Sys2Proof/Machine/Cycle.lean ====
section
/-! DEFINITION. The course of a cycle (log 4): its events by the agenda, then the choice of issues (R20 to R23), the issues
one by one, then the turn to the next cycle with what every core does in it (R18, R21, R261, R414). -/

namespace Sys2Proof.Machine

/-- The module runs: it has power, or POWER_ON is to come (R459). -/
def State.runs (s : State) : Bool :=
  s.power.on || s.agenda.any (fun t => match t.ev with | .powerOn => true | _ => false)

/-- The path of an issue still stands at its instruction: an earlier issue of the cycle may have moved the crew into its
handler or have ended it. -/
def State.stands (s : State) (u : Issue) : Bool :=
  let c := s.crew u.crew
  c.live && (s.core c.core).issues &&
  (lanesOf u.lanes).all (fun l => (c.thread l).st = .ready && (c.thread l).pc = u.pc)

/-- The first issue of the turn is taken up. -/
def State.take (s : State) (u : Issue) (rest : List Issue) : State := { s with turn := rest, cur := some u }

/-- A fetch that brought no instruction: its threads wait for the walk, or trap (R61, R141). -/
def State.fetchStop (s : State) (u : Issue) (f : Fetched) : State :=
  match f with
  | .miss va => s.instrMiss u.crew u.pc va .fetch u.lanes
  | .fault va kind level => s.instrFault u.crew u.pc va kind level .fetch u.lanes u.lanes
  | .illegal why => s.illegal u why
  | .instr _ => s

/-- Cores that hold crews. -/
def State.liveCores (s : State) : List Nat :=
  ((s.crews.filter (fun p => p.2.live)).map (fun p => p.2.core)).eraseDups

/-- A step of a core's sequencer or of a lease of its crews. -/
def Event.ofUnits (g : Nat) (crewCore blockCore : Nat → Nat) (e : Event) : Bool :=
  match e with
  | .multicastEnqueue c _ | .seqBlockRead c _ | .seqStart c | .amodeSwitch c _ | .columnSumDone c _ | .mloadSlotDone c _
  | .mmvFetchDone c _ | .mmvHighPlanesDone c _ | .mmvLowPlanesDone c _ | .mmvSumDone c _ | .rowCommit c _ | .accRowDone c _
  | .seqOpRetire c _ => c = g
  | .amodeStorageEntry b _ => blockCore b = g
  | .leasePlaced k _ | .leaseFillData k _ => crewCore k = g
  | _ => false

/-- What a core keeps of its own state at the start of a cycle (R414). -/
def State.snap (s : State) (g : Nat) : Snap :=
  { crews := s.crews.filter (fun p => p.2.live && p.2.core = g)
    blocks := s.blocks.filter (fun p => p.2.live && p.2.core = g)
    core := s.core g
    events := s.agenda.filter (fun t => t.ev.ofUnits g (fun k => (s.crew k).core) (fun b => (s.block b).core))
    reqs := s.reqs.filterMap (fun p => match p.2 with
      | some r => if (s.crew r.crew).core = g then some (p.1, r) else none
      | none => none)
    copies := s.copies.filterMap (fun p => match p.2 with
      | some c => if c.core = g then some (p.1, c) else none
      | none => none)
    groups := s.groups.filterMap (fun p => match p.2 with
      | some x => if (s.crew x.crew).core = g then some (p.1, x) else none
      | none => none) }

/-! ## What the journal holds (R414) -/

/-- Keys at which two tables in canonical form differ; the number is at least the sum of their lengths. -/
def diffFrom {β : Type} [DecidableEq β] : Nat → Tab β → Tab β → List Nat
  | 0, _, _ => []
  | _ + 1, [], b => b.map Prod.fst
  | _ + 1, a, [] => a.map Prod.fst
  | n + 1, (k, x) :: a, (j, y) :: b =>
    if k = j then (if x = y then diffFrom n a b else k :: diffFrom n a b)
    else if k < j then k :: diffFrom n a ((j, y) :: b)
    else j :: diffFrom n ((k, x) :: a) b

/-- Keys at which two tables differ. -/
def diffKeys {β : Type} [DecidableEq β] (a b : Tab β) : List Nat := diffFrom (a.length + b.length) a b

/-- Journal entries that a crew's change from `a` to `b` takes: one for each register, each predicate and thread change, the
form entries, the crew's words. -/
def Crew.journalled (a b : Crew) : Nat :=
  ((diffKeys a.regs b.regs).map (· / 32)).eraseDups.length +
  (if a.preds = b.preds && a.wb = b.wb && a.threads = b.threads then 0 else 1) +
  (b.forms.filter (fun f => !a.forms.contains f)).length +
  (if a.egress = b.egress then 0 else 1) +
  (if a.status = b.status && a.loads = b.loads && a.stores = b.stores && a.copies = b.copies && a.tiles = b.tiles && a.leases = b.leases
   then 0 else 1)

/-- Journal entries of a block's change: 128-byte units of its banks, rows, slots. -/
def Block.journalled (a b : Block) : Nat :=
  ((diffKeys a.pad b.pad).map (· / 128)).eraseDups.length +
  ((diffKeys a.acc b.acc).map (· / 64)).eraseDups.length +
  (diffKeys a.slots b.slots).foldl (fun n j =>
    let x := Tab.get Tile.init a.slots j
    let y := Tab.get Tile.init b.slots j
    n + ((diffKeys x.weights y.weights).map (· / 128)).eraseDups.length +
    (if x.compute = y.compute && x.sums = y.sums then 0 else 1)) 0

/-- Entries that the changes of a core from `a` to `b` take. -/
def Snap.journalled (a b : Snap) : Nat :=
  (a.crews.foldl (fun n p => match b.crews.find? (fun q => q.1 = p.1) with
    | some q => n + p.2.journalled q.2
    | none => n) 0) +
  (a.blocks.foldl (fun n p => match b.blocks.find? (fun q => q.1 = p.1) with
    | some q => n + p.2.journalled q.2
    | none => n) 0) +
  (if a.core.post = b.core.post then 0 else 1)

/-- Entries that the changes since the latest snapshot take. -/
def State.changesNow (s : State) (g : Nat) : Nat :=
  match (Tab.get [] s.journals g).findSome? JEntry.snap with
  | some x => x.journalled (s.snap g)
  | none => 0

/-- Entries of a core's journal that the finished cycles from a point on use. -/
def State.journalSum (s : State) (g point : Nat) : Nat :=
  (Tab.get [] s.journals g).foldl (fun n j => if point ≤ j.cycle then n + j.used else n) 0

/-- Entries that a core's journal uses from a point on, at most 8,192 (R415). -/
def State.journalUse (s : State) (g point : Nat) : Nat := min 8192 (s.journalSum g point + s.changesNow g)

/-- The journal of a core is full: what needs an entry waits until the oldest is 256 cycles old (R415). It is judged by the
cycles that are finished (log 73). -/
def State.journalFull (s : State) (g : Nat) : Bool := decide (8192 ≤ s.journalSum g (s.cycle - 255))

/-- The entry of the latest snapshot takes what its cycle has changed. -/
def settleJournal (n : Nat) : List JEntry → List JEntry
  | [] => []
  | j :: js => if j.snap.isSome then { j with used := n } :: js else j :: settleJournal n js

/-- Changes of the last 256 cycles stay in a core's journal (R414); a restoring core keeps what it restores from. -/
def State.keepJournal (s : State) (g : Nat) : State :=
  if (s.core g).restoring.isSome then s else
  let old := (settleJournal (s.changesNow g) (Tab.get [] s.journals g)).filter (fun j => decide (s.cycle < j.cycle + 257))
  { s with journals := Tab.set [] s.journals g (⟨s.cycle, some (s.snap g), [], 0⟩ :: old) }

/-- A step of a core's own units that changes what the journal keeps. -/
def State.needsEntry (s : State) (g : Nat) (e : Event) : Bool :=
  e.ofUnits g (fun k => (s.crew k).core) (fun b => (s.block b).core) ||
  (match e with | .copyPieceLand id _ => (s.copy id).any (fun c => c.core = g) | _ => false)

/-- Due steps of cores whose journal is full wait for the next cycle (R415). -/
def State.withheld (s : State) : State :=
  let full := s.liveCores.filter s.journalFull
  if full = [] then s
  else
    let waits (t : Timed) : Bool := decide (t.due ≤ s.cycle) && full.any (fun g => s.needsEntry g t.ev)
    forEach (s.agenda.filter waits) { s with agenda := s.agenda.filter (fun t => !waits t) } (fun t u => u.scheduleAt 1 t.key t.ev)

/-- The first event of the agenda, where it is due. -/
def State.dueEvent (s : State) : Option (Event × State) :=
  let s := s.withheld
  match s.agenda with
  | t :: rest => if t.due ≤ s.cycle then some (t.ev, { s with agenda := rest, cur := none }) else none
  | [] => none

/-- A cycle in which a restored core issues counts towards the end of its recovery span (R420). -/
def State.spendRecovery (s : State) (g : Nat) : State :=
  let n := (s.core g).recoveryLeft
  if n ≤ 1 then s
  else
    let s := s.modCore g (fun c => { c with recoveryLeft := n - 1 })
    if n = 2 then s.schedule 1 2 (.recoverySpanEnd g) else s

/-- Choose the issues of the cycle; a core with a full journal has none (R415). Threads that are ready and do not issue count
their wait (R21). -/
def State.beginTurn (s : State) : State :=
  let t := s.plan.filter (fun u => !s.journalFull (s.crew u.crew).core)
  let s := s.busyCores.foldl (fun s g => s.countWaits g (t.filter (fun u => (s.crew u.crew).core = g))) s
  let s := ((t.map (fun u => (s.crew u.crew).core)).eraseDups).foldl (fun s g => s.spendRecovery g) s
  { s with turn := t, planned := true, cur := none }

/-- Some thread is ready, so the next cycle counts. -/
def State.busy (s : State) : Bool :=
  s.crews.any (fun p => p.2.live && p.2.threads.any (fun t => t.2.st = .ready))

/-- The cycle that follows: the next one, or where no thread is ready the one of the next event (log 4). -/
def State.nextCycle (s : State) : Nat :=
  match s.agenda with
  | t :: _ => if s.busy then s.cycle + 1 else max (s.cycle + 1) t.due
  | [] => s.cycle + 1

/-- The end of a cycle: crews enter and leave the active sets, idle cores are noted, the clock moves on. -/
def State.tick (s : State) : State :=
  let s := s.liveCores.foldl (fun s g => ((s.exchange g).noteReady g).noteIdle g) s
  let s := { s with cycle := s.nextCycle, planned := false, cur := none }
  s.liveCores.foldl (fun s g => s.keepJournal g) s

/-! ## A program's first instruction -/

/-- The page at which `placed` stores an instruction: 4 GiB from address 0 under key slot 1, writable and executable. -/
def codeLeaf : Leaf :=
  { size := 32, key := 1, ks := false, rep := false, rdup := false, sh := false, cache := 0, buf := 0, pa := 0, w := true,
    x := true }

/-- Address of the placed instruction. -/
def codeAt : Nat := 0x1000

/-- A crew of 128 registers, block 0 of record 0 on core 0 of sett 0, whose 32 threads stand at the placed instruction;
its page is in the core's TLB and its path is the one issue of the cycle. -/
def State.placed (s : State) (code : Nat) : State :=
  let s := s.modRecord 0 0 (fun x => { x with st := .placed, handler := codeAt + 0x1000, gbar := 0xFFFF })
  let s := s.setBlock 0 { live := true, regs := 128, crews := 1 }
  let s := s.setCrew 0 { live := true, nregs := 128,
                         threads := (List.range 32).map (fun l => (l, { pc := BitVec.ofNat 64 codeAt, st := .ready })) }
  let s := s.modSett 0 (fun t => { t with keys := Tab.set none t.keys 1 (some 1) })
  let s := s.modCore 0 (fun g => { g with tlb := [entryFor codeAt codeLeaf], gate := 0, fenced := false, restoring := none })
  let s := s.hbmWriteKey 0 codeAt 12 1 code none
  { s with turn := [{ crew := 0, pc := BitVec.ofNat 64 codeAt, lanes := 0xFFFFFFFF#32, before := (s.crew 0).regs, slot := 0 }]
           power := { s.power with on := true } }

end Sys2Proof.Machine
end

