-- ==== Sys2Proof/Machine/Directory.lean ====
section
/-! DEFINITION. The messages of cross-sett coherence (spec/16, R361 to R369): what a home, a sharer core, a fabric port or
link agent and an owner do with each. The data of a sector that a fabric port owns stands in the home's HBM (log 17). -/

namespace Sys2Proof.Machine

/-! ## Helpers -/

/-- Agenda key of messages at a home and at a sharer. -/
def homeKey : Nat := 14
def shareKey : Nat := 16

/-- Bytes of a sector. -/
def State.sectorBytes (s : State) (x : Nat) : Nat :=
  if inContext (sectorAddr x) then 0 else s.hbmRead (sectorSett x) (sectorAddr x) 64

/-- A sector's bytes as they go to an owner: the host is kept from the context area alone (R382, R424), and reads a poisoned sector with
CXL poison, bit 512 (R422, log 128). -/
def State.ownerBytes (s : State) (node x : Nat) : Nat :=
  if node != 1 then s.sectorBytes x
  else
    (if contextArea (sectorAddr x) then 0 else s.hbmRead (sectorSett x) (sectorAddr x) 64) + (if Tab.get false s.poison x then 2 ^ 512 else 0)

/-- A message to an owner: one to the host leaves the module (R375). -/
def State.tellOwner (s : State) (node x code value : Nat) : State :=
  if node = 1 then s.send (.cxl (sectorSett x) code (sectorAddr x) value) else s

/-- Release tags of a sector's words, by word. -/
def State.sectorTags (s : State) (x : Nat) : List (Nat × Nat × Nat) := (s.sett (sectorSett x)).tagsIn (sectorAddr x) 64

/-- A core counts as a sharer: it is of another sett, or the number names a link agent (R361, R362). -/
def sharerOf (x core : Nat) : Bool := coreSett core != sectorSett x || decide (core % 128 < 18)

/-- Requests wait in a sector's queue of 16; a request beyond them waits at the slot's input (R365). -/
def State.queueAt (s : State) (x : Nat) (ev : Event) : State :=
  let e := s.dirOf x
  if (e.queue.filter (fun q => q.1 = x % 4)).length < 16 then s.setDir x { e with queue := e.queue ++ [(x % 4, ev)] }
  else s.schedule 1 homeKey ev

/-- The queue of a sector that left OW is served in order. -/
def State.serveQueue (s : State) (x : Nat) : State :=
  let e := s.dirOf x
  let mine := e.queue.filter (fun q => q.1 = x % 4)
  let s := s.setDir x { e with queue := e.queue.filter (fun q => q.1 != x % 4) }
  forEach mine s (fun q t => t.schedule 0 homeKey q.2)

/-- The line of a sector waits in the victim buffer (R369). -/
def State.inVictims (s : State) (x : Nat) : Bool := (s.sett (sectorSett x)).victims.contains (dirKey x)

/-- A line leaves the victim buffer once its acknowledgements and its write-back are there (R369). -/
def State.leaveVictims (s : State) (x : Nat) : State :=
  let t := s.sett (sectorSett x)
  let waits := t.collectors.any (fun p => match p.2 with
    | some k => k.req.isNone && k.sectors.any (fun y => dirKey y = dirKey x)
    | none => false)
  if waits || s.dirOf x != DirEntry.init then s
  else s.modSett (sectorSett x) (fun t => { t with victims := t.victims.filter (· != dirKey x) })

/-- Set of the directory of a sector's line: home slice and one of 2,048 sets (R361). -/
def dirSet (k : Nat) : Nat := k % 2 ^ 17

/-- Room for a new entry in its set of 16 ways (R361, R369); false where the victim buffer or the collector is full. -/
def State.dirRoom (s : State) (x : Nat) : Bool × State :=
  let h := sectorSett x
  let t := s.sett h
  if s.dirOf x != DirEntry.init then (true, s)
  else
    let mine := t.dir.filter (fun p => dirSet p.1 = dirSet (dirKey x) && !t.victims.contains p.1)
    if mine.length < 16 then (true, s)
    else if 64 ≤ (t.victims.filter (fun k => k % 64 = dirKey x % 64)).length then (false, s)
    else
      let old := mine.foldl (fun (best : Option (Nat × DirEntry)) p => match best with
        | none => some p
        | some b => if p.2.used < b.2.used then some p else some b) none
      match old with
      | none => (true, s)
      | some (k, e) =>
        let y := h * 2 ^ 31 + 4 * k
        let shared := ((List.range 4).map (y + ·)).filter (fun z => s.sectorState z = 1)
        match s.sendInvs y shared none with
        | none => (false, s)
        | some s =>
          let e := (shared.foldl (fun (e : DirEntry) z => e.withState (z % 4) 0) e).clearIdle
          let s := (s.setDir y e).recall ((List.range 4).map (y + ·))
          let s := s.modSett h (fun t => { t with victims := t.victims.filter (· != k) ++ [k] })
          (true, s.leaveVictims y)

/-- The home's data for a GetS: the sector as it stands goes to the core. -/
def State.sendData (s : State) (x core : Nat) : State :=
  let t := 135 + (if s.llcHit (sectorSett x) (sectorAddr x) then 0 else 270)
  let s := s.modCore core (fun g => { g with arriving := g.arriving ++ [(x, s.sectorBytes x, s.sectorTags x)] })
  let s := s.schedule (s.channel (sectorSett x) (coreSett core) t) shareKey (.data core x)
  s.llcTouch (sectorSett x) (sectorAddr x) 0 0

/-! ## At the home (R365) -/

/-- The loads of a core that wait for a sector: (request, part). One behind a write of its crew to the same bytes waits
for none before that write is performed (R272). -/
def State.waitsFor (s : State) (core x : Nat) : List (Nat × Nat) :=
  s.reqs.flatMap (fun p => match p.2 with
    | none => []
    | some r => if (s.crew r.crew).core != core then []
                else (r.lanes.filter (fun y => y.wait && !y.done && (y.free || decide (r.deps = [])) && (match y.target with
                  | some t => (match s.named (crewSett r.crew) t.place with | some (q, a) => sectorOf q a = x | none => false)
                  | none => false))).map (fun y => (p.1, y.part)))

/-- Waiting loads whose window has lost its export, or whose key slot has emptied, fault where the home would serve them
(R352, R455). Answers whether none remains that this took away. -/
def State.dropLateLoads (s : State) (core x : Nat) : Bool × State :=
  let ws := s.waitsFor core x
  let s' := ws.foldl (fun (s : State) (w : Nat × Nat) => match s.req w.1 with
    | none => s
    | some r => match r.lane w.2 with
      | none => s
      | some y => match y.target with
        | none => s
        | some t => match s.lateKind r t with
          | some kind => s.lateFault w.1 r y kind
          | none => s) s
  (decide (ws != []) && decide (s'.waitsFor core x = []), s')

/-- A GetS for another module's sector: the link agent asks its home, whose data is a free value that comes after the link's latency; over a
link that is down the loads fault (R366, R377, R378; log 20). -/
def State.getsForeign (s : State) (x core : Nat) : State :=
  let (none_, s) := s.dropLateLoads core x
  match none_, s.linkOf x with
  | false, some l =>
    let k := s.link l
    let mask := match k.loaded.find? (fun p => p.1 = x) with | some p => p.2 | none => 0
    let s := s.setLink l { k with loaded := (x, mask ||| 2 ^ coreSett core) :: k.loaded.filter (fun p => p.1 != x) }
    let (d, s) := (s.toLink (foreignAt x).1 l 7 (foreignAt x).2 0).draw
    (s.modCore core (fun g => { g with arriving := g.arriving ++ [(x, (Config.remoteSector d).toNat, [])] })).schedule
      (2 * k.latency + 135) shareKey (.data core x)
  | _, _ => s.modCore core (fun g => { g with sectors := Tab.set .i g.sectors x .i })

/-- GETS. -/
def execGets (sett : Nat) (sector : Nat) (core : Nat) (s : State) : Out :=
  if sectorSett sector != sett || !sharerOf sector core then .next s
  else if foreign sett then .next (s.getsForeign sector core)
  else if s.inVictims sector then .next (s.schedule 1 homeKey (.gets sett sector core))
  else
    let (none_, s) := s.dropLateLoads core sector
    if none_ then .next (s.modCore core (fun g => { g with sectors := Tab.set .i g.sectors sector .i }))
    else
    let (ok, s) := s.dirRoom sector
    if !ok then .next (s.schedule 1 homeKey (.gets sett sector core))
    else
      let e := s.dirOf sector
      match s.sectorState sector with
      | 2 => .next ((s.setDir sector ((e.addSharer core).withState (sector % 4) 3)).schedule 75 17 (.fwdGets e.own sector core))
      | 3 => .next (s.queueAt sector (.gets sett sector core))
      | _ => .next ((s.setDir sector ((e.addSharer core).withState (sector % 4) 1)).sendData sector core)

/-- An eviction notice for another module's sector: the agent answers the core, and sends one to the home once no sett that it serves
holds the sector any more (R378). -/
def State.evictForeign (s : State) (x core : Nat) : State :=
  let s := s.schedule 135 shareKey (.evack core x)
  let holds (p : Nat × Core) : Bool := p.1 != core && (match Tab.get SectorSt.i p.2.sectors x with | .i | .si => false | _ => true)
  let mask := (List.range 8).foldl (fun m q => if s.cores.any (fun p => coreSett p.1 = q && holds p) then m + 2 ^ q else m) 0
  match s.linkOf x with
  | none => s
  | some l =>
    let k := s.link l
    if !k.loaded.any (fun p => p.1 = x) then s
    else
      let rest := k.loaded.filter (fun p => p.1 != x)
      if mask = 0 then (s.setLink l { k with loaded := rest }).toLink (foreignAt x).1 l 4 (foreignAt x).2 0
      else s.setLink l { k with loaded := (x, mask) :: rest }

/-- EVICT: EvAck in every state; in S the sharer is removed. -/
def execEvict (sett : Nat) (sector : Nat) (core : Nat) (s : State) : Out :=
  if foreign sett then .next (s.evictForeign sector core)
  else
  let s := if s.sectorState sector = 1 then s.setDir sector ((s.dirOf sector).dropSharer core) else s
  .next (s.schedule (s.channel sett (coreSett core) 135) shareKey (.evack core sector))

/-- OWN: data and ownership go to the asker at once; sharers are invalidated, another owner is asked to give the line
back. -/
def execOwn (sett : Nat) (sector : Nat) (node : Nat) (s : State) : Out :=
  if sectorSett sector != sett then .next s
  else if s.inVictims sector then .next (s.schedule 1 homeKey (.own sett sector node))
  else
    let (ok, s) := s.dirRoom sector
    if !ok then .next (s.schedule 1 homeKey (.own sett sector node))
    else
      let e := s.dirOf sector
      let give (s : State) (e : DirEntry) : State :=
        (s.setDir sector { e.withState (sector % 4) 2 with own := node }).tellOwner node sector 4 (s.ownerBytes node sector)
      match s.sectorState sector with
      | 0 => .next (give s e)
      | 1 =>
        (match s.sendInvs sector [sector] none with
          | none => .next (s.schedule 1 homeKey (.own sett sector node))
          | some s => .next (give s (e.withState (sector % 4) 0).clearIdle))
      | 2 =>
        if e.own = node then .next (give s e)
        else .next (((s.setDir sector { e.withState (sector % 4) 3 with
            queue := (sector % 4, .own sett sector node) :: e.queue })).schedule 75 17 (.fwdOwn e.own sector node))
      | _ => .next (s.queueAt sector (.own sett sector node))

/-- WB: the owner's data is written; in OW the queue is served, in O the release was the owner's own. -/
def execWb (sett : Nat) (sector : Nat) (node : Nat) (data : Nat) (s : State) : Out :=
  let st := s.sectorState sector
  if sectorSett sector != sett || st < 2 then .next s
  else
    let s := s.hbmWrite sett (sectorAddr sector) 64 data
    let e := s.dirOf sector
    let shared := decide (e.names != []) && st = 3
    let e := e.withState (sector % 4) (if shared then 1 else 0)
    let e := if e.sst.any (fun v => decide (2 ≤ v)) then e else { e with own := 0 }
    let s := s.setDir sector e
    let s := if st = 2 then s.schedule 75 17 (.wback node sector) else s
    .next ((s.serveQueue sector).leaveVictims sector)

/-! ## Writes of puts at the owning home (R353, R364, R368) -/

/-- Add to the completion counter of the export that a handle names (R353, R354); false where its home has to wait. -/
def State.addCtr (s : State) (handle n : Nat) : Bool × State :=
  let q := handle / 2 ^ 49 % 8
  let ctr := s.hbmRead q ((s.sett q).base 4 + 64 * bits handle 48 40 + 40) 8
  if ctr = 0 then (true, s) else s.homeAdd q ctr n 0

/-- A put's write has been performed and its invalidations are acknowledged: the window's counter rises, and a PUT's piece
is reported. -/
def State.putDone (s : State) (id : Nat) : State :=
  match s.req id with
  | none => s
  | some r =>
    if r.awaiting || r.phase != 2 then s
    else
      let window := match r.lanes with | x :: _ => x.target.bind Target.window | [] => none
      let (ok, s) := match window with
        | some w => s.addCtr (windowOf (s.sett (crewSett r.crew)) w).handle (r.size * r.lanes.length)
        | none =>
          if r.agent = 0 then (true, s)
          else s.addCtr (bits r.message 439 432 * 2 ^ 49 + bits r.message 431 368 / 2 ^ 40 * 2 ^ 40) r.size
      if !ok then s.schedule 1 homeKey (.wr (crewSett r.crew) id)
      else
        let s := if r.dst = 0 then s else s.schedule (if window.isSome then 60 else 0) 32 (.putPiecePerformed (r.dst - 1) r.width)
        s.setReq id none

/-- An operation of a sequencer has had its trap for a refusal (R292). -/
def State.tellOp (s : State) (id : Nat) : State :=
  let tell (o : SeqOp) : SeqOp := if o.id = id then { o with told := true } else o
  { s with cores := s.cores.map (fun (p : Nat × Core) => (p.1, { p.2 with seq := p.2.seq.map tell })) }

/-- A refusal has been reported to the crew: no other write of the instruction raises a trap. -/
def State.tellAll (s : State) (r : Req) : State :=
  let s := { s with reqs := s.reqs.map (fun p => (p.1, p.2.map (fun q =>
    if q.crew = r.crew && q.pc = r.pc && q.phase = 2 && (q.issued = r.issued || (r.group != 0 && q.group = r.group)) then
      { q with told := true } else q))) }
  if r.group != 0 then s.tellOp (r.group - 1)
  else if r.dst = 0 then s else s.modCopy (r.dst - 1) (fun c => { c with refused := true })

/-- A put that its export no longer admits (R352): a window store's crew gets a deferred fault, a PUT's copy ends. -/
def State.putFault (s : State) (id : Nat) (r : Req) (x : LaneReq) (kind : Nat) : State :=
  let k := r.crew
  let level := match x.target with | some t => t.level | none => 0
  let s := s.setReq id none
  if r.dst = 0 then
    s.faultArrives (crewSett k) (s.crewFault k r.pc x.va kind level .write (maskOf (r.lanes.map LaneReq.lane)).toNat 0
      (.late k r.pc 12 r.issued))
  else
    (s.faultArrives (crewSett k) (s.crewFault k r.pc x.va kind level .write (2 ^ x.lane : Nat) 1 (.copy (r.dst - 1) .write x.va))).schedule
      60 32 (.putPiecePerformed (r.dst - 1) r.width)

/-- Leaves that a sett's tables hold from a level down (R333). -/
def State.leaves (s : State) (sett : Nat) : Nat → Nat → List Leaf
  | level, table =>
    let lo := hbmAddr sett table
    let n := 8 * (match level with | 3 | 2 => 4096 | 1 => 2048 | _ => 512)
    let es := ((s.hbm.filter (fun p => decide (lo ≤ p.1) && decide (p.1 < lo + n))).map (fun p => (p.1 - lo) / 8)).eraseDups
    es.flatMap (fun j => match level, decodeEntry level (s.hbmRead sett (table + 8 * j) 8) with
      | _, .leaf l => [l]
      | m + 1, .table pa => State.leaves s sett m pa
      | _, _ => [])

/-- Whole tables of a sett. -/
def State.allLeaves (s : State) (sett : Nat) : List Leaf := s.leaves sett 3 ((s.sett sett).base 0)

/-- A range of a sett's memory lies in a keep-siblings page of its tables, or holds cells with a record (R283; log 119). -/
def State.ksAt (s : State) (sett a n : Nat) : Bool :=
  (s.sett sett).cells.any (fun p => p.2.isSome && decide (a < 4 * p.1 + 4) && decide (4 * p.1 < a + n)) ||
  (s.allLeaves sett).any (fun l => l.ks && decide (l.pa ≤ a) && decide (a < l.pa + 2 ^ l.size))

/-- Where data of a put lands in a sett: in the shadow frame of a shadowed page (R268; log 53). -/
def State.landingAddr (s : State) (sett a : Nat) : Nat :=
  let dist (l : Leaf) : Nat := bits (s.shadowWord sett l.buffer) 51 12 * 4096
  let within (l : Leaf) (base : Nat) : Bool := decide (base ≤ a) && decide (a < base + 2 ^ l.size)
  match (s.allLeaves sett).find? (fun l => l.sh && (within l l.pa || within l (l.pa + dist l))) with
  | none => a
  | some l =>
    let off := if within l l.pa then a - l.pa else a - (l.pa + dist l)
    l.pa + off + (if (s.shadowWord sett l.buffer).testBit 63 then 0 else dist l)

/-- The answer of a home to another module's access goes back over its link: data with its length, or the completion of a write with what a
refusal turned away (R292; log 30). -/
def State.answerAgent (s : State) (r : Req) (code n op v : Nat) : State :=
  s.toLink (bits r.message 439 432) (r.agent - 1) code (bits r.message 431 368)
    (n % 256 * 2 ^ 344 + bits r.message 343 336 * 2 ^ 336 + op % 256 * 2 ^ 328 + v % 2 ^ 320)

/-- Perform another module's access at its home, under the link agent's stamp (R284, R288, R292, R353). -/
def State.performAgent (s : State) (id : Nat) (r : Req) (x : LaneReq) (t : Target) (q a : Nat) : State :=
  let done (s : State) : State := s.setReq id none
  let stamped (rc : Bool) : Stamp × State := let (n, u) := s.agentStamp q r.agent
                                            ({ n with rc := rc }, u)
  match r.kind with
  | .atom op .. =>
    let (old, s) := s.memRead t r.size
    let width := 8 * r.size
    let s := s.hbmWriteKey q a r.size t.key (atomicNew op width old (x.data % 2 ^ width) (x.data / 2 ^ width)) none
    done ((((s.register q a r.size none).noteExport q a r.size).reread q).answerAgent r 8 r.size 0 old)
  | .rcn mode _ =>
    let (n, s) := stamped true
    let vals := if ((s.sett q).cell a).isSome then (s.cellValues q a).map (fun v => v.2.toNat) else [(s.memRead t 4).1]
    let v := collapse mode vals x.data
    let s := if ((s.sett q).cell a).isSome then s.putCell q a t.key [(n, BitVec.ofNat 32 v)] none else s.hbmWriteKey q a 4 t.key v none
    done ((s.register q a 4 none).answerAgent r 8 4 vals.length v)
  | .load =>
    let (v, s) := s.memRead t r.size
    done (s.answerAgent r 8 r.size 0 v)
  | _ =>
    let (n, s) := stamped false
    let (bad, s) := s.homeWrite
      { sett := q, addr := a, n := r.size, value := x.data, key := t.key, ks := s.ksAt q a r.size, stamp := n }
    let s := forEach bad s (fun c u => u.report q { kind := 0x0B, unit := 6, addr := c.1, info := c.2.toNat, stamp := n.word })
    let refused := match bad with | c :: _ => 2 ^ 319 + c.1 * 2 ^ 32 + c.2.toNat | [] => 0
    let s := s.setLane id { x with done := true }
    s.answerAgent r 9 r.size (if bad = [] then 0 else 1) refused

/-- Perform a put's write at the owning home: an engine write (R277, R292). -/
def State.performPut (s : State) (id : Nat) (r : Req) (x : LaneReq) (t : Target) (q a : Nat) : State :=
  if r.agent != 0 then (s.performAgent id r x t q a).llcTouch q a 0 0
  else
  let w : HomeWrite :=
    { sett := q, addr := a, n := r.size, value := x.data, key := t.key, ks := t.ks, stamp := r.stamp.at (crewSett r.crew) q x.lane,
      frontier := r.frontier.pairs, launch := some (s.launchOf r.crew) }
  let (bad, s) := s.homeWrite w
  let s := if bad = [] then s else (s.refuse q r.crew r.pc r.issued bad w.stamp (!r.told) false true).tellAll r
  let s := if r.release then s.tagWords q a r.size r.stamp.ident r.stamp.epoch else s
  let s := if r.poison then s.markPoison q a r.size true else s
  (s.setLane id { x with done := true }).llcTouch q a r.hint t.cache

/-- Address at its home of a lane of a put. -/
def State.putAt (s : State) (r : Req) (t : Target) (q b : Nat) : Nat :=
  if t.window.isSome || r.agent != 0 && r.kind.isStore then s.landingAddr q b else b

/-- Perform the lanes of a put, which write one line (R402). -/
def State.performPuts (s : State) (id : Nat) (r : Req) : State :=
  let at_ (x : LaneReq) : Option Place := x.target.map (fun t =>
    let t := s.visible (crewSett r.crew) t
    match t.place with | .hbm q b => .hbm q (s.putAt r t q b) | p => p)
  let s := if r.poison then s else s.clearCovered (r.lanes.filterMap at_) r.size
  (r.lanes.foldl (fun s x => match s.req id, x.target.map (s.visible (crewSett r.crew)) with
    | some r, some t => (match t.place with
      | .hbm q b => s.performPut id r x t q (s.putAt r t q b)
      | _ => s)
    | _, _ => s) s).putDone id

/-- Sectors that a put writes. -/
def State.putSectors (s : State) (r : Req) : List Nat :=
  (r.lanes.flatMap (fun x => match x.target.map (s.visible (crewSett r.crew)) with
    | some t => (match t.place with
      | .hbm q b => sectorsIn q (s.putAt r t q b) r.size
      | _ => [])
    | none => [])).eraseDups

/-- A write of a put at its home, by the state of its sectors. -/
def State.homeWr (s : State) (id : Nat) (ev : Event) : State :=
  match s.req id with
  | none => s
  | some r =>
    match r.lanes with
    | [] => s.setReq id none
    | x :: _ =>
      if r.lanes.all LaneReq.done then s.putDone id
      else match x.target with
      | none => s.setReq id none
      | some t =>
        let t := s.visible (crewSett r.crew) t
        match s.lateKind r t, t.place with
        | some kind, _ => s.putFault id r x kind
        | none, .hbm q b =>
          let a := s.putAt r t q b
          if t.rep then
            (match (s.sett q).inArea a r.size with
              | some n => s.schedule 0 homeKey (.replicaWrite (Tab.get Area.init (s.sett q).areas n).seqr n id)
              | none => s.setReq id none)
          else
          let xs := s.putSectors r
          match xs.find? (fun y => decide (2 ≤ s.sectorState y) || s.inVictims y) with
          | some y =>
            if s.inVictims y then s.schedule 1 homeKey ev
            else if s.sectorState y = 2 then
              if (s.dirOf y).own = 1 then (s.recall [y]).queueAt y ev
              else s.schedule 75 17 (.fwdWr (s.dirOf y).own id)
            else s.queueAt y ev
          | none =>
            let (ok, s) := if r.kind = .load then (true, s) else s.dirWriteAll xs (some id)
            if !ok then s.schedule 1 homeKey ev
            else match s.req id with
              | some r => s.performPuts id r
              | none => s
        | none, _ => s.setReq id none

/-- WR. -/
def execWr (sett : Nat) (req : Nat) (s : State) : Out := .next (s.homeWr req (.wr sett req))

/-- NACK: the owner gave the line back, and the home performs the returned write as in state I or S (R365). -/
def execNack (sett : Nat) (req : Nat) (s : State) : Out := .next (s.homeWr req (.wr sett req))

/-! ## At a fabric port or link agent (R364) -/

/-- Change an entry of the ack collectors of a sett. -/
def State.setCollector (s : State) (h c : Nat) (k : Option Collector) : State :=
  s.modSett h (fun t => { t with collectors := Tab.set none t.collectors c k })

/-- The exports of a sett that cover an address: index and offset. -/
def State.exportsAt (s : State) (sett a : Nat) : List (Nat × Nat) :=
  let base := (s.sett sett).base 4
  if base = 0 then []
  else (List.range 512).filterMap (fun i =>
    let e := s.hbmRead sett (base + 64 * i) 64
    let lo := bits e 511 448
    if (bits e 1 0 = 1 || bits e 1 0 = 2) && decide (lo ≤ a) && decide (a < lo + bits e 447 384) then some (i, a - lo) else none)

/-- A link agent that holds sectors is told of the Inv under every export that covers them; it answers once with InvAck, the last message
asking for it (R364, R378). Over a link that is down, or where no export is left, the port of the home answers. -/
def State.invAgent (s : State) (h l collector : Nat) (sectors : List Nat) : Bool × State :=
  let ms := sectors.flatMap (fun x => (s.exportsAt h (sectorAddr x)).map (fun e => e.1 * 2 ^ 40 + e.2))
  if (s.link l).st = 0 || ms = [] then (false, s)
  else
    let s := s.setLink l { s.link l with invs := (s.link l).invs ++ [(h, collector)] }
    (true, (List.range ms.length).foldl (fun s j =>
      s.toLink h l 5 (ms.getD j 0) ((if j + 1 = ms.length then 2 ^ 328 else 0) + collector)) s)

/-- INV: the port of sett `node − 2` applies it to every named L1 in one cycle and answers with their number; a link agent
answers with 1, after the setts that it serves have been told (R378). -/
def execInv (node : Nat) (sector : Nat) (collector : Nat) (s : State) : Out :=
  let h := sectorSett sector
  match Tab.get none (s.sett h).collectors collector with
  | none => .next s
  | some k =>
    let back (s : State) (n : Nat) : State :=
      (s.setCollector h collector (some { k with acks := k.acks ++ [n] })).schedule 60 homeKey (.invack h collector)
    if 16 ≤ node then
      let (sent, s) := s.invAgent h (node - 16) collector k.sectors
      .next (if sent then s else back s 1)
    else
      let cores := k.names.filter (fun c => coreSett c = node - 2)
      let s := cores.foldl (fun s c => k.sectors.foldl (fun s x => s.invSector c x) s) s
      .next (back s cores.length)

/-! ## Acknowledgements (R368) -/

/-- A write's request is complete: nothing waits for its invalidations any more. -/
def State.completeWrite (s : State) (id : Nat) : State :=
  match s.req id with
  | none => s
  | some r =>
    let more := s.setts.any (fun p => p.2.collectors.any (fun c => match c.2 with
      | some k => k.req = some id
      | none => false))
    if more then s
    else
      let s := s.modReq id (fun q => { q with awaiting := false })
      if r.phase = 2 then (if r.lanes.all LaneReq.done then s.putDone id else s)
      else
        let s := if r.phase = 3 then s.setReq id none else s
        (s.settleFences r.crew).checkEnd r.crew

/-- INVACK. -/
def execInvack (sett : Nat) (collector : Nat) (s : State) : Out :=
  match Tab.get none (s.sett sett).collectors collector with
  | none => .next s
  | some k =>
    let got := k.got + k.acks.headD 0
    if got < k.expected then
      .next (s.setCollector sett collector (some { k with got := got, acks := k.acks.drop 1 }))
    else
      let s := s.setCollector sett collector none
      match k.req with
      | some id => .next (s.completeWrite id)
      | none => .next (k.sectors.foldl (fun s x => s.leaveVictims x) s)

/-! ## At a sharer core (R366) -/

/-- A waiting load takes its bytes from the sector that arrived. -/
def State.serveLoad (s : State) (bytes : Nat) (tags : List (Nat × Nat × Nat)) (w : Nat × Nat) : State :=
  match s.req w.1 with
  | none => s
  | some r =>
    match r.lane w.2 with
    | none => s
    | some y =>
      match y.target with
      | some t =>
        (match s.named (crewSett r.crew) t.place with
          | some (_, a) =>
            let v := bytes / 2 ^ (8 * (a % 64)) % 2 ^ (8 * r.size)
            let y := { y with wait := false, out := true, free := true, done := true, back := decide (r.late = 0), value := v, due := s.cycle + r.late }
            let mine := (tags.filter (fun p => decide (a % 64 / 4 ≤ p.1) && decide (4 * p.1 < a % 64 + r.size))).map Prod.snd
            let s := s.modReq w.1 (fun q => { q.setLane y with tags := q.tags ++ mine })
            if r.late = 0 then s.finishReq w.1 else s.follow w.1 r [y]
          | none => s)
      | none => s

/-- A core number that names a link agent of the sector's home: its link (R362). -/
def agentLink (core x : Nat) : Option Nat := if coreSett core = sectorSett x then some (core % 128) else none

/-- What the peer asked for a sector by, and the export's address that stands for it. -/
def State.askedAt (s : State) (l x : Nat) : List Nat := ((s.link l).asked.filter (fun p => p.1 = x)).map Prod.snd

/-- EVACK: SI becomes I; loads that wait send GetS. A link agent passes it on. -/
def execEvack (core : Nat) (sector : Nat) (s : State) : Out :=
  match agentLink core sector with
  | some l => .next (forEach ((s.exportsAt (coreSett core) (sectorAddr sector)).take 1) s (fun e t =>
      t.toLink (coreSett core) l 10 (e.1 * 2 ^ 40 + e.2) 0))
  | none =>
  if Tab.get SectorSt.i (s.core core).sectors sector != .si then .next s
  else if s.waitsFor core sector = [] then
    .next (s.modCore core (fun g => { g with sectors := Tab.set SectorSt.i g.sectors sector .i }))
  else
    .next (((s.modCore core (fun g => { g with sectors := Tab.set SectorSt.i g.sectors sector .is })).l1Place core
      (sectorLine sector) false).schedule 135 homeKey (.gets (sectorSett sector) sector core))

/-- DATA: waiting loads are served; IS becomes S, ISI becomes I after serving once. A link agent sends the peer the sector in two
flits. -/
def execData (core : Nat) (sector : Nat) (s : State) : Out :=
  let g := s.core core
  let (bytes, tags) := match g.arriving.find? (fun p => p.1 = sector) with
    | some p => p.2
    | none => (s.sectorBytes sector, s.sectorTags sector)
  let rest := g.arriving.eraseP (fun p => p.1 = sector)
  match agentLink core sector with
  | some l =>
    let s := s.modCore core (fun g => { g with arriving := rest })
    let asks := s.askedAt l sector
    let s := s.setLink l { s.link l with asked := (s.link l).asked.filter (fun p => p.1 != sector) }
    .next (forEach asks s (fun a t =>
      (t.toLink (coreSett core) l 8 a (32 * 2 ^ 344 + bytes % 2 ^ 256)).toLink (coreSett core) l 8 a (32 * 2 ^ 344 + 2 ^ 328 + bytes / 2 ^ 256 % 2 ^ 256)))
  | none =>
  let st := Tab.get SectorSt.i g.sectors sector
  if st != .is && st != .isi then .next (s.modCore core (fun g => { g with arriving := rest }))
  else
    let ws := s.waitsFor core sector
    let next := if st = .is then SectorSt.s else SectorSt.i
    let s := s.modCore core (fun g => { g with arriving := rest, sectors := Tab.set SectorSt.i g.sectors sector next })
    let s := if st = .is then s.l1Fill core (sectorSett sector) (sectorAddr sector) 64 bytes tags false else s.l1Tidy core
    .next (ws.foldl (fun s w => s.serveLoad bytes tags w) s)

/-! ## At an owner (R367, R375) -/

/-- The owner of a sector still holds it. -/
def State.owns (s : State) (node x : Nat) : Bool := decide (2 ≤ s.sectorState x) && (s.dirOf x).own = node

/-- FWD_GETS: data to the core, from an owner in O with a write-back to the home, from one in OI from its copy. The host is asked with
BISnpData; its answer is the write-back, and the home then serves the core (R375). -/
def execFwdGets (node : Nat) (sector : Nat) (core : Nat) (s : State) : Out :=
  if node = 1 && s.owns 1 sector then
    let e := s.dirOf sector
    .next ((s.setDir sector { e with queue := (sector % 4, .gets (sectorSett sector) sector core) :: e.queue }).tellOwner 1 sector 5 core)
  else
  let bytes := s.sectorBytes sector
  let s := s.modCore core (fun g => { g with arriving := g.arriving ++ [(sector, bytes, s.sectorTags sector)] })
  let s := s.schedule 135 shareKey (.data core sector)
  .next (if s.owns node sector then s.schedule 75 homeKey (.wb (sectorSett sector) sector node bytes) else s)

/-- FWD_WR: an owner in O performs the write in its copy and answers the tag with count 0; one in OI returns it. The host
cannot carry it out, so the home recalls the line (R375). -/
def execFwdWr (node : Nat) (req : Nat) (s : State) : Out :=
  match s.req req with
  | none => .next s
  | some r =>
    match r.lanes with
    | [] => .next s
    | x :: _ =>
      match x.target with
      | some t =>
        let t := s.visible (crewSett r.crew) t
        (match t.place with
          | .hbm q _ =>
            let xs := s.putSectors r
            if node != 1 && xs.all (fun y => s.owns node y) then .next (s.performPuts req r)
            else .next (s.schedule 75 homeKey (.nack q req))
          | _ => .next s)
      | none => .next s

/-- FWD_OWN: an owner in O writes the line back, one in OI does nothing. A recall of the home itself has asker 0. The host is asked with
BISnpInv, and its answer is the write-back (R375). -/
def execFwdOwn (node : Nat) (sector : Nat) (asker : Nat) (s : State) : Out :=
  .next (if !s.owns node sector then s
    else if node = 1 then s.tellOwner 1 sector 6 asker
    else s.schedule 75 homeKey (.wb (sectorSett sector) sector node (s.sectorBytes sector)))

/-- WBACK: an owner in OI has no copy any more (R367); the host is told with Cmp (R375). -/
def execWback (node : Nat) (sector : Nat) (s : State) : Out := .next (s.tellOwner node sector 7 0)

end Sys2Proof.Machine
end

