-- ==== Sys2Proof/Machine/Replica.lean ====
section
/-! DEFINITION. Replicated pages (spec/16, R355 to R357): the sequencer numbers a write, performs it at its own replica and
multicasts the update; members apply updates in ascending number. -/

namespace Sys2Proof.Machine

def State.area (s : State) (sett a : Nat) : Area := Tab.get Area.init (s.sett sett).areas a
def State.modArea (s : State) (sett a : Nat) (f : Area → Area) : State :=
  s.modSett sett (fun t => { t with areas := Tab.modify Area.init t.areas a f })

/-- Members of an area as the sequencer's table names them. -/
def Area.memberList (x : Area) : List Nat := (List.range 8).filter (fun m => x.members.testBit m)

/-- The sequencer can number a write now: it is in operation, has itself applied everything that it was sent as a member, and
every member's reorder buffer has room (R356, R357). -/
def State.sequencerReady (s : State) (q a : Nat) : Bool :=
  let x := s.area q a
  (s.sett q).span != .startUp && x.v && x.seqr = q && x.pending = [] &&
  x.memberList.all (fun m => decide ((s.area m a).pending.length < 64))

/-- While the sequencer of an area is in reset, system software may name another member in operation, in every member's table; that one goes
on with the next number, for every update that the old one numbered stands at the members (R357, log 61). -/
def State.settleSequencer (s : State) (own a : Nat) : State :=
  let x := s.area own a
  if !x.v || (s.sett x.seqr).span != .startUp then s
  else
    let (d, s) := s.draw
    let m := (Config.newSequencer d).toNat
    if m < 8 && x.members.testBit m && (s.sett m).span != .startUp && (s.area m a).v then
      forEach (x.memberList.filter (fun q => (s.area q a).v)) s (fun q t => t.modArea q a (fun y => { y with seqr := m }))
    else s

/-- Bytes written to one replica: no core is registered, and a release tags its word. -/
def State.applyUpdate (s : State) (sett base : Nat) (u : Update) (launch : Option Nat) : State :=
  let at_ := base + u.off
  let s := (s.hbmWriteKey sett at_ u.bytes u.key u.value launch).register sett at_ u.bytes none
  match u.tag with
  | some p => s.tagWord sett at_ p.1 p.2
  | none => s

/-- Number a write, perform it at the sequencer's replica and send it to the other members. -/
def State.sequence (s : State) (q a : Nat) (u : Update) (launch : Option Nat) : State :=
  let x := s.area q a
  let u := { u with number := x.next }
  let s := (s.applyUpdate q x.base u launch).modArea q a (fun y => { y with next := y.next + 1 })
  forEach (x.memberList.filter (· != q)) s (fun m t =>
    (t.modArea m a (fun y => { y with pending := y.pending ++ [u] })).schedule 60 18 (.replicaUpdate m a u.number))

/-- The own sett has applied a write: the lane's part of its request is done. -/
def State.replicaDone (s : State) (id lane : Nat) : State :=
  match s.req id with
  | none => s
  | some r =>
    match r.lane lane with
    | none => s
    | some x =>
      if x.done then s
      else if r.phase = 2 then (s.setLane id { x with done := true }).putDone id
      else
        let y := { x with wait := false, done := true, due := s.cycle + (if r.kind.returns then (match x.target with
          | some t => s.returnTime r .repl t
          | none => 0) else 0) }
        (s.setLane id y).follow id r [y]

/-- What a request's lane writes and what it returns, given the old bytes (R142, R149, R155). -/
def Req.replicaStep (r : Req) (x : LaneReq) (old : Nat) : Nat × Nat × Nat :=
  let w := 8 * r.size
  match r.kind with
  | .atom op .. => (atomicNew op w old (x.data % 2 ^ w) (x.data / 2 ^ w), old, 0)
  | .rcn mode _ => let v := collapse mode [old] x.data
                   (v, v, 1)
  | _ => (x.data, x.value, x.aux)

/-- The write of one lane at the sequencer; false where it has to wait. -/
def State.replicaLane (s : State) (q a id : Nat) (r : Req) (x : LaneReq) (t : Target) : Bool × State :=
  match t.place with
  | .hbm own pa =>
    let off := pa - (s.area own a).base
    let at_ := (s.area q a).base + off
    let (ok, s) := s.dirWrite q at_ r.size (some id)
    if !ok || !s.sequencerReady q a then (false, s)
    else
      let (old, s) := s.hbmReadKey q at_ r.size t.key
      let (new, v, aux) := r.replicaStep x old
      let tags := match r.kind with | .atom .. | .rcn .. => ((s.sett q).tagOf at_).toList | _ => []
      let tag := match r.kind with
        | .rcn .. => some (r.stamp.ident, r.stamp.epoch)
        | _ => if r.release then some (r.stamp.ident, r.stamp.epoch) else none
      let u : Update := { number := 0, off := off, bytes := r.size, value := new, key := t.key, tag := tag, writer := 64 * id + x.part }
      let s := s.sequence q a u (some (s.launchOf r.crew))
      let s := s.modReq id (fun y => { (y.setLane { x with value := v, aux := aux, wait := true }) with tags := y.tags ++ tags })
      (true, if own = q then s.replicaDone id x.part else s)
  | _ => (true, s)

/-- REPLICA_WRITE: the lanes of a request that stand at the sequencer are numbered in ascending order; while it cannot take
them they wait there, and where system software has named another sequencer they go to it. -/
def execReplicaWrite (sett : Nat) (area : Nat) (req : Nat) (s : State) : Out :=
  match s.req req with
  | none => .next s
  | some r =>
    let own := crewSett r.crew
    let s := s.settleSequencer own area
    if (s.area own area).seqr != sett then .next (s.schedule 60 homeKey (.replicaWrite (s.area own area).seqr area req))
    else
      let here := r.lanes.filter (fun x => x.out && x.free && !x.done && !x.wait && decide (x.due ≤ s.cycle))
      if here = [] then .next s
      else if !s.depsMet r || !s.sequencerReady sett area then .next (s.schedule 1 homeKey (.replicaWrite sett area req))
      else
        let (ok, s) := here.foldl (fun (acc : Bool × State) x =>
          if !acc.1 then acc
          else match x.target with
            | some t =>
              (match acc.2.lateKind r t with
                | some kind => (true, acc.2.lateFault req r x kind)
                | none => match acc.2.req req with
                  | some r => acc.2.replicaLane sett area req r x t
                  | none => acc)
            | none => acc) (true, s)
        .next (if ok then s else s.schedule 1 homeKey (.replicaWrite sett area req))

/-- REPLICA_UPDATE: the update with the next number is applied, a later one waits in the reorder buffer, an earlier one is
discarded, and so is one to a sett whose table no longer names the area (R356, R357). -/
def execReplicaUpdate (sett : Nat) (area : Nat) (number : Nat) (s : State) : Out :=
  let x := s.area sett area
  match x.pending.find? (fun u => u.number = number) with
  | none => .next s
  | some u =>
    let drop (s : State) : State := s.modArea sett area (fun y => { y with pending := y.pending.filter (fun v => v.number != number) })
    if number < x.next || !x.v then .next (drop s)
    else if x.next < number then .next (s.schedule 1 18 (.replicaUpdate sett area number))
    else
      let (ok, s) := s.dirWrite sett (x.base + u.off) u.bytes none
      if !ok then .next (s.schedule 1 18 (.replicaUpdate sett area number))
      else
        let s := (drop (s.applyUpdate sett x.base u none)).modArea sett area (fun y => { y with next := number + 1 })
        .next (if (s.req (u.writer / 64)).any (fun (r : Req) => crewSett r.crew == sett) then
            s.replicaDone (u.writer / 64) (u.writer % 64) else s)

/-- A write of an engine to a replicated page (R356): numbered and sent to the members. -/
def State.replicate (s : State) (sett pa n key v : Nat) (launch : Option Nat) : State :=
  match (s.sett sett).inArea pa n with
  | none => s
  | some a =>
    s.sequence (s.area sett a).seqr a
      { number := 0, off := pa - (s.area sett a).base, bytes := n, value := v, key := key, tag := none, writer := 64 * s.nextId } launch

end Sys2Proof.Machine
end

