-- ==== Sys2Proof/Machine/Queue.lean ====
section
/-! DEFINITION. Regions, stage queues and job cards (spec/14, R309 to R317): their layouts, the checks, the engine's own
accesses, and the writing of a card by SYS.post and by the fault unit. -/

namespace Sys2Proof.Machine

/-! ## The engine's accesses -/

/-- Read at a physical address of the own HBM or of host memory (log 23). -/
def State.physRead (s : State) (sett pa n : Nat) : Nat :=
  if bits pa 51 48 = 0 then s.hbmRead sett pa n else s.hostRead (pa % 2 ^ 51) n

def State.physWrite (s : State) (sett pa n v : Nat) : State :=
  if bits pa 51 48 = 0 then s.hbmWrite sett pa n v else s.hostWrite (pa % 2 ^ 51) n v

/-- Target of an access of the host-queue engine: it walks the sett's tables (R331, R342 agent 3; log 23). -/
def State.engineTarget (s : State) (sett va n : Nat) (acc : Access) : Xlate :=
  if 2 ^ 56 ≤ va then .fault 5 0
  else match s.walk sett va with
    | .leaf l => s.applyLeaf sett va n acc l false
    | .fault kind level => .fault kind level

/-- Read of the host-queue engine at a virtual address; none where it does not translate. What another module answers is free
(log 20). -/
def State.engineRead (s : State) (sett va n : Nat) : Option Nat :=
  match s.engineTarget sett va n .read with
  | .ok t => (match t.place with
      | .remote .. => some ((Config.engineRemote s.cycle va).toNat % 2 ^ (8 * n))
      | _ => some (s.memRead t n).1)
  | _ => none

/-- Record the engine's fault (agent 3); what it wanted is tried again at its next read. -/
def State.engineFault (s : State) (sett va : Nat) (acc : Access) : State :=
  match s.engineTarget sett va 8 acc with
  | .fault kind level => s.faultArrives sett { va := va, kind := kind, access := acc.code, level := level, agent := 3, rp := replayable kind }
  | _ => s

/-! ## Regions (R309 to R311) -/

/-- The control blocks from `a` up to the root, at most `n` (R309). -/
def State.rcbChain (s : State) (sett : Nat) : Nat → Nat → List (Nat × Nat)
  | 0, _ => []
  | n + 1, a =>
    if a = 0 then []
    else let w := s.rcb sett a
         (a, w) :: State.rcbChain s sett n (bits w 1023 960)

/-- Field i of the nearest block that sets it (R310). -/
def pickField (chain : List (Nat × Nat)) (i hi lo : Nat) : Nat :=
  match chain.find? (fun b => (bits b.2 715 704).testBit i) with
  | some b => bits b.2 hi lo
  | none => 0

/-- Effective values of the region at `a`; none where R310 makes the engine refuse it. -/
def State.region (s : State) (sett a : Nat) : Option Region :=
  let chain := s.rcbChain sett 9 a
  match chain.getLast? with
  | none => none
  | some root =>
    let f := pickField chain
    let r : Region :=
      { handler := f 0 959 896, spill := f 1 895 832, slots := f 1 831 816, clusters := f 2 751 744, store := f 3 767 752,
        queues := f 4 799 784, arrays := f 5 783 768, prio := f 6 718 716, kill := f 7 721 720, relaunch := f 8 723 722,
        th1 := f 9 729 724, th2 := f 10 735 730, xlate := f 11 719 719 = 1 }
    if 8 < chain.length || bits root.2 1023 960 != 0 || bits root.2 715 704 != 0xFFF || r.kill = 3 || decide (r.th2 < r.th1) ||
        decide (r.th1 < 20) || decide (36 < r.th1) || decide (r.th2 < 24) || decide (40 < r.th2) ||
        decide (16384 < r.queues) || decide (16384 < r.arrays) || decide (16384 < r.store) || decide (32 < r.clusters) ||
        a % 128 != 0 then none
    else some r

/-- The engine keeps the blocks that it reads (R311). -/
def State.cacheRegion (s : State) (sett a : Nat) : State :=
  let chain := s.rcbChain sett 9 a
  s.modSett sett (fun t => { t with rcbs := chain.foldl (fun c b => Tab.set 0 c b.1 (b.2 + 1)) t.rcbs })

/-! ## Queues (R312) -/

def queueAddr (t : Sett) (q : Nat) : Nat := t.base 3 + 64 * q
def State.queueWord (s : State) (sett q : Nat) : Nat := s.hbmRead sett (queueAddr (s.sett sett) q) 64

def qRing (w : Nat) : Nat := bits w 511 448
def qRcb (w : Nat) : Nat := bits w 447 384
def qTail (w : Nat) : Nat := bits w 383 352
def qHead (w : Nat) : Nat := bits w 351 320
def qDone (w : Nat) : Nat := bits w 319 288
def qLead (w : Nat) : Nat := bits w 287 272
def qPipe (w : Nat) : Nat := bits w 271 260
def qStage (w : Nat) : Nat := bits w 259 256
def qDepth (w : Nat) : Nat := 2 ^ bits w 8 4
def qClosed (w : Nat) : Bool := w.testBit 3
def qSrc (w : Nat) : Bool := w.testBit 2
def qErr (w : Nat) : Bool := w.testBit 1
def qEn (w : Nat) : Bool := w.testBit 0
/-- Occupancy, modulo 2^32 (R312). -/
def qUsed (w : Nat) : Nat := (qTail w + 2 ^ 32 - qHead w) % 2 ^ 32

def State.setTail (s : State) (sett q v : Nat) : State := s.hbmWrite sett (queueAddr (s.sett sett) q + 44) 4 (v % 2 ^ 32)
def State.setHead (s : State) (sett q v : Nat) : State := s.hbmWrite sett (queueAddr (s.sett sett) q + 40) 4 (v % 2 ^ 32)
def State.setDone (s : State) (sett q v : Nat) : State := s.hbmWrite sett (queueAddr (s.sett sett) q + 36) 4 (v % 2 ^ 32)

/-- Address of card k of a queue's ring. -/
def cardAddr (w k : Nat) : Nat := qRing w + 64 * (k % qDepth w)

def State.queue (s : State) (sett q : Nat) : QueueSt := Tab.get QueueSt.init (s.sett sett).queues q
def State.modQueue (s : State) (sett q : Nat) (f : QueueSt → QueueSt) : State :=
  s.modSett sett (fun t => { t with queues := Tab.modify QueueSt.init t.queues q f })

/-- A queue stops with an error (R313). -/
def State.queueError (s : State) (sett q code : Nat) : State :=
  let a := queueAddr (s.sett sett) q
  let s := s.hbmWrite sett a 1 (putBits (s.hbmRead sett a 1) 1 1 1)
  s.modQueue sett q (fun x => { x with errCode := code, checked := false, dep := false })

/-- The enabled queues of a sett, from the queue table as memory lists it. -/
def State.enabledQueues (s : State) (sett : Nat) : List Nat :=
  let lo := hbmAddr sett ((s.sett sett).base 3)
  (s.hbm.filter (fun p => decide (lo ≤ p.1) && decide (p.1 < lo + 64 * 16384) && (p.1 - lo) % 64 = 0 && p.2.getLsbD 0)).map
    (fun p => (p.1 - lo) / 64)

/-! ## Cards and kernel descriptors (R314 to R316) -/

def cSig (c : Nat) : Nat := bits c 319 256
def cWait (c : Nat) : Nat := bits c 255 192
def cVal (c : Nat) : Nat := bits c 191 128
def cKdesc (c : Nat) : Nat := bits c 127 64
def cGangs (c : Nat) : Nat := bits c 63 40
def cBlocks (c : Nat) : Nat := bits c 39 38 + 1
def cGen (c : Nat) : Bool := c.testBit 37
def cQueue (c : Nat) : Nat := bits c 31 18

def kL1 (k : Nat) : Nat := bits k 148 144
def kGbar (k : Nat) : Nat := bits k 143 128
def kScratch (k : Nat) : Nat := bits k 127 96
def kAccum (k : Nat) : Nat := bits k 95 84
def kArrays (k : Nat) : Nat := bits k 83 76
def kCrews (k : Nat) : Nat := bits k 75 71 + 1
def kRegs (k : Nat) : Nat := 16 * (bits k 70 65 + 1)
def kEntry (k : Nat) : Nat := bits k 63 0

/-- Register and scratchpad arrays of a block (R236). -/
def kStore (k : Nat) : Nat := regArrays (kCrews k) (kRegs k) + padBytes (kScratch k) / 16384

/-- The checks of R316 on a card of queue q. -/
def cardOk (c q : Nat) : Bool :=
  c % 16 = 7 && bits c 17 4 = 0 && bits c 36 32 = 0 && cQueue c = q && cSig c % 8 = 0 && cWait c % 8 = 0 && cKdesc c % 64 = 0

/-- The checks of R316 on a kernel descriptor; a crew has 16 to 512 registers (R66), and scratchpad offsets have 21 bits (R240). -/
def kdescOk (k : Nat) : Bool :=
  bits k 511 149 = 0 && !k.testBit 64 && kEntry k % 4 = 0 && decide (kRegs k ≤ 512) && decide (kL1 k ≤ 16) && decide (kAccum k ≤ 3072) &&
  decide (kArrays k ≤ 128) && decide (kScratch k ≤ 2 ^ 21) && decide (kStore k + kArrays k ≤ 128 - 4 * kL1 k)

/-- The kernel descriptor of a card that passes both checks (R316); one that cannot be read fails. -/
def State.checkCard (s : State) (sett c q : Nat) : Option Nat :=
  if !cardOk c q then none
  else match s.engineRead sett (cKdesc c) 64 with
    | some k => if kdescOk k then some k else none
    | none => none

/-! ## Posting (R182, R313, R317) -/

/-- What a queue does with a posted card. -/
inductive Posted where
  | taken (s : State)
  | full
  | bad

/-- A card written at the tail of the src 1 queue that it names, or refused. -/
def State.postCard (s : State) (sett c : Nat) : Posted :=
  let q := cQueue c
  let w := s.queueWord sett q
  if !qEn w || qClosed w || !qSrc w || 16 < bits w 8 4 || (s.checkCard sett c q).isNone then .bad
  else if qDepth w ≤ qUsed w then .full
  else .taken (((s.physWrite sett (cardAddr w (qTail w)) 64 c).setTail sett q (qTail w + 1)).schedule 1 80 (.cardHeadCheck sett q))

/-- A queue has gained room: cards that waited are tried again (R182, R343). -/
def State.roomGained (s : State) (sett : Nat) : State :=
  let cores := (s.cores.filter (fun p => coreSett p.1 = sett && p.2.post != [])).map Prod.fst
  let s := forEach cores s (fun g t => t.scheduleSub 0 46 (g % 128) (.postBufferDrain g))
  if (s.sett sett).faults.any (fun e => e.2.rp && e.2.res = 0 && !e.2.pst) then s.schedule 0 45 (.faultServiceCardPost sett) else s

end Sys2Proof.Machine
end

