-- ==== Sys2Proof/Machine/Faults.lean ====
section
/-! DEFINITION. What the translation hardware and the fault unit do in the course of time (spec/15, R338 to R344): walks,
the fault buffer's service, TLB invalidation (spec/06, R183), and job cards posted by crews (R182). -/

namespace Sys2Proof.Machine

/-! ## Walks (R338) -/

/-- Table entries that a walk passes: level, index, entry. -/
def State.walkPath (s : State) (sett va : Nat) : Nat → Nat → List (Nat × Nat × Nat)
  | level, table =>
    let e := s.hbmRead sett (entryAddr table level va) 8
    match level, decodeEntry level e with
    | n + 1, .table pa => (n + 1, va / 2 ^ levelShift (n + 1), e) :: State.walkPath s sett va n pa
    | _, _ => []

/-- Fill of the walk cache: 128 sets of 16 ways, least recently used (R338). -/
def walkCacheFill (l : List (Nat × Nat × Nat)) (w : Nat × Nat × Nat) : List (Nat × Nat × Nat) :=
  let l := l.filter (fun x => !(x.1 = w.1 && x.2.1 = w.2.1))
  let mine := l.filter (fun x => x.2.1 % 128 = w.2.1 % 128)
  match mine.getLast? with
  | some last => if 16 ≤ mine.length then w :: l.filter (fun x => x != last) else w :: l
  | none => w :: l

/-- Install a leaf in the shared TLB and its tables in the walk cache. -/
def State.installWalk (s : State) (sett va : Nat) (l : Leaf) : State :=
  let path := s.walkPath sett va 3 ((s.sett sett).base 0)
  s.modSett sett (fun t => { t with
    stlb := tlbFill 2048 16 t.stlb (entryFor va l)
    wcache := path.foldl walkCacheFill t.wcache })

/-- Kind of access that an instruction makes at its addresses. -/
def instrAccess (i : Instr) : Access :=
  match i with
  | .st .. | .stl .. => .write
  | .atom .. | .atomr .. | .red .. | .atom64 .. | .rcn .. | .rcnx .. => .atomic
  | _ => .read

/-- Core and agent of a waiter, for the order of R341. -/
def State.waiterOrder (s : State) (w : Waiter) : Nat × Nat :=
  match w with
  | .threads k _ _ _ | .late k _ _ _ => ((s.crew k).core, 0)
  | .load r => (match s.req r with | some q => (s.crew q.crew).core | none => 0, 0)
  | .copy i _ _ => (match s.copy i with | some c => c.core | none => 0, 1)
  | .seq g _ _ _ => (g, 2)
  | .prefetch r => (match s.req r with | some q => (s.crew q.crew).core | none => 0, 4)

def State.sortWaiters (s : State) (ws : List Waiter) : List Waiter :=
  sortBy (fun a b => let x := s.waiterOrder a
                     let y := s.waiterOrder b
                     decide (x.1 < y.1) || (x.1 = y.1 && (decide (x.2 < y.2) || (x.2 = y.2 && decide (s.issueOrder a ≤ s.issueOrder b))))) ws

/-- Core whose TLB a waiter's access uses. -/
def State.waiterCore (s : State) (w : Waiter) : Option Nat :=
  match w with
  | .late .. => none
  | .load r | .prefetch r => (s.req r).map (fun q => (s.crew q.crew).core)
  | .copy i _ _ => (s.copy i).map Copy.core
  | w => some (s.waiterOrder w).1

/-! ## Waiters -/

/-- Free values for the lanes of a load that a fault ends (R99, log 19). -/
def State.freeLanes (s : State) (id va : Nat) : State :=
  match s.req id with
  | none => s
  | some r =>
    let bad := r.lanes.filter (fun x => x.target.isNone && !x.done && x.va / 4096 = va / 4096)
    (bad.foldl (fun s x => s.freeLane id r.size x) s).finishReq id

/-- A step of an operation that waited is taken up again. -/
def State.resumeStep (s : State) (g op delay : Nat) (failed : Bool) (entry : Option Nat := none) : State :=
  match (s.core g).seq.find? (fun o => o.id = op) with
  | some o => (match o.parkedOn with
      | some ev => (s.modCore g (fun c => { c with seq := c.seq.map (fun x =>
          if x.id = op then { x with parkedOn := none, failed := x.failed || failed, entry := entry } else x) })).schedule delay 34 ev
      | none => s)
  | none => s

/-- A fault that the access cannot survive, recorded in entry `e`: threads trap, a deferring load gets a deferred trap and
free values, an engine ends its copy or its operation. `keep` is the entry that TRET frees. -/
def State.failWaiter (s : State) (w : Waiter) (va e : Nat) (keep : Option Nat) : State :=
  match w with
  | .threads k pc m _ => (s.unpark k m).takeTrap k .translation pc e (some m) keep
  | .load id =>
    (match s.req id with
      | some r => (((s.redoTrap r.issued r.crew 12 r.pc e keep).deferTrap r.crew .deferredTranslation r.pc e keep).2).freeLanes id va
      | none => s)
  | .copy id _ _ => (s.modCopy id (fun c => { c with parked := false, fault := some e })).schedule 0 33 (.copyRetire id)
  | .seq g op _ _ => s.resumeStep g op 0 true keep
  | .prefetch id => (s.dropLanes id va).finishReq id
  | .late k pc code issued =>
    let d : Deferred := { code := code, pc := pc, info := BitVec.ofNat 32 e, entry := keep, due := s.cycle }
    ((s.redoTrap issued k code pc e keep).deferEntry k d).2

/-- A request that has left its threads behind gets the targets that the TLB now holds; the lanes that the translation faults end as
the rules say. -/
def State.retarget (s : State) (id : Nat) : State :=
  match s.req id with
  | none => s
  | some r =>
    let open_ := (r.lanes.filter (fun x => x.target.isNone && !x.done)).map (fun x => (x, s.laneTarget r.crew x.va r.size r.kind.access))
    let s := s.modReq id (fun q => { q with lanes := q.lanes.map (fun x =>
      match open_.find? (fun y => y.1.lane = x.lane && y.1.half = x.half) with
      | some (_, .ok t) => { x with target := some t, due := s.cycle }
      | _ => x) })
    s.seekLanes id (open_.map (fun y => (y.1.va, y.2)))

/-- The accesses that waited go on: threads execute their instruction again, with the translation that was brought for it. -/
def State.wakeWaiter (s : State) (w : Waiter) (va : Nat) (l : Leaf) : State :=
  match w with
  | .threads k pc m _ => (s.modCrew k (fun c => { c with brought := (pc, entryFor va l) :: c.brought.filter (fun b => b.2.vpn != (entryFor va l).vpn || b.2.leaf.size != l.size) })).unpark k m
  | .load id | .prefetch id => s.retarget id
  | .copy id _ _ => (s.modCopy id (fun c => { c with parked := false })).schedule 1 33
      (.copyPieceLand id (match s.copy id with | some c => c.piece | none => 0))
  | .seq g op _ _ => s.resumeStep g op 1 false
  | .late .. => s

/-- The fault of one waiter of a walk, with its own kind of access; a prefetch drops it. Threads fault with the lanes of the page
(R342). -/
def State.faultWaiter (s : State) (sett : Nat) (w : Waiter) (va kind level : Nat) : State :=
  match w with
  | .threads k pc m since =>
    let (at_, acc, bad) := match s.fetch k pc.toNat with
      | .instr i =>
        let c := s.crew k
        let ls := (c.active i m).filter (fun l => c.laneAddr i l / 4096 = va / 4096)
        (match ls with | l :: _ => c.laneAddr i l | [] => va, instrAccess i, if ls = [] then m else maskOf ls)
      | _ => (va, Access.fetch, m)
    if (lanesOf m).all (fun l => ((s.crew k).thread l).st != .parked) then s
    else s.faultArrives sett (s.crewFault k pc at_ kind level acc bad 0 (.threads k pc m since))
  | .load id => s.loadFault id va kind level
  | .copy id acc at_ =>
    (match s.copy id with
      | none => s
      | some c => s.faultArrives sett { s.crewFault c.crew c.pc at_ kind level acc (2 ^ c.lane : Nat) 1 w with core := c.core })
  | .seq g op acc at_ =>
    (match (s.core g).seq.find? (fun o => o.id = op) with
      | none => s
      | some o => s.faultArrives sett { s.crewFault o.crew o.pc at_ kind level acc (2 ^ o.lane : Nat) 2 w with pc := 0, core := g })
  | .prefetch id => (s.dropLanes id va).finishReq id
  | .late .. => s

/-- A translation goes to the TLBs of the cores that wait for it, and the accesses that waited go on. -/
def State.deliverLeaf (s : State) (ws : List Waiter) (va : Nat) (l : Leaf) : State :=
  let s := (ws.filterMap s.waiterCore).eraseDups.foldl (fun s g => s.fillCoreTlb g va l) s
  ws.foldl (fun s x => s.wakeWaiter x va l) s

/-- TRANSLATION_WALK_DONE (R338, R339): the shared TLB's translation, or what the tables hold. -/
def execTranslationWalkDone (walk : Nat) (s : State) : Out :=
  match Tab.get none s.walks walk with
  | none => .next s
  | some w =>
    if w.again then
      .next ({ s with walks := Tab.set none s.walks walk (some { w with again := false, hit := none }) }.schedule (s.walkTime w.sett w.va) 40
        (.translationWalkDone walk))
    else
      let s := { s with walks := Tab.set none s.walks walk none }
      let ws := s.sortWaiters w.waiters
      let s := match w.hit, s.walk w.sett w.va with
        | some l, _ => s.deliverLeaf ws w.va l
        | none, .leaf l => (s.installWalk w.sett w.va l).deliverLeaf ws w.va l
        | none, .fault kind level => ws.foldl (fun s x => s.faultWaiter w.sett x w.va kind level) s
      .next (s.nextWalk w.sett)

/-! ## The fault unit (R341 to R344) -/

/-- A fault has been given an entry: what system software cannot repair is delivered (R341). -/
def State.faultWritten (s : State) (sett e : Nat) (f : FaultEntry) : State :=
  if f.rp then s
  else
    let s := s.setFault sett e { s.fault sett e with waiters := [] }
    f.waiters.foldl (fun s w => s.failWaiter w f.va e (some e)) s

/-- The fault takes an entry, or waits at the walker for one. -/
def State.takeFault (s : State) (sett : Nat) (f : FaultEntry) : State :=
  let (e, s) := s.recordFault sett f
  match e with
  | some e => s.faultWritten sett e f
  | none => s

/-- Order of two faults of one cycle: virtual core, agent, issue order, lowest faulting lane (R341). -/
def Arrival.before (a b : Arrival) : Bool :=
  let low (m : Nat) : Nat := ((List.range 32).find? (fun l => m.testBit l)).getD 32
  let key (x : Arrival) : List Nat := [x.fault.core % 128, x.fault.agent, x.order, low x.fault.lanes]
  decide (key a ≤ key b)

/-- The faults that reached the fault unit in this cycle are taken in order. -/
def State.takeArrivals (s : State) (sett : Nat) : State :=
  let all := sortBy Arrival.before (s.sett sett).arrivals
  all.foldl (fun s a => s.takeFault sett a.fault) (s.modSett sett (fun t => { t with arrivals := [] }))

/-- A fault that waited at the walker takes an entry that has become free (R341). -/
def State.placeWaiting (s : State) (sett : Nat) : State :=
  match (s.sett sett).faultWait with
  | [] => s
  | f :: rest =>
    if (s.freeEntry sett).isNone && (s.openEntry sett f).isNone then s
    else (s.modSett sett (fun t => { t with faultWait := rest })).takeFault sett f

/-- The service card of an entry (R343). -/
def serviceCard (queue kdesc entry seq : Nat) : Nat :=
  7 + queue * 2 ^ 18 + 2 ^ 40 + kdesc * 2 ^ 64 + entry * 2 ^ 320 + seq % 2 ^ 16 * 2 ^ 352

/-- FAULT_SERVICE_CARD_POST (R341, R343): the faults of the cycle take their entries; the oldest entry without a card has it posted;
without a service queue the host's fault interrupt is raised. -/
def execFaultServiceCardPost (sett : Nat) (s : State) : Out :=
  let s := (s.placeWaiting sett).takeArrivals sett
  let t := s.sett sett
  let open_ := t.faults.filter (fun e => e.2.rp && e.2.res = 0 && !e.2.pst)
  let oldest := open_.foldl (fun (b : Option (Nat × FaultEntry)) e => match b with
    | none => some e
    | some x => if e.2.opened < x.2.opened then some e else some x) none
  match oldest with
  | none => .next s
  | some (e, f) =>
    let q := t.base 5
    if q = 0xFFFF then .next (s.raise sett 1)
    else
      match s.postCard sett (serviceCard q (t.base 6) e f.seq) with
      | .taken s =>
        let s := s.setFault sett e { f with pst := true }
        .next (if 1 < open_.length then s.schedule 1 45 (.faultServiceCardPost sett) else s)
      | _ => .next s

/-- FAULT_RES_STORE (R342): a store to the word of bits 191:128 is taken where the entry is open, the stored res is 1 or 2
and the stored seq is the entry's. -/
def execFaultResStore (sett : Nat) (entry : Nat) (value : Nat) (s : State) : Out :=
  let f := s.fault sett entry
  let res := bits value 28 27
  if f.res != 0 || (res != 1 && res != 2) || bits value 58 43 != f.seq % 2 ^ 16 then .next s
  else if res = 1 then
    .next ((s.setFault sett entry { f with res := 1 }).schedule (s.walkTime sett f.va) 41 (.faultRetryWalkDone sett entry))
  else
    let ws := s.sortWaiters f.waiters
    let s := s.setFault sett entry { f with kind := 0xA, res := 3, waiters := [] }
    .next (ws.foldl (fun s w => s.failWaiter w f.va entry none) s)

/-- The access kind of a code. -/
def accessOf (n : Nat) : Access := match n with | 0 => .read | 1 => .write | 2 => .atomic | _ => .fetch

/-- FAULT_RETRY_WALK_DONE (R343): the walk installs the translation and replays the waiters, or the entry opens again. -/
def execFaultRetryWalkDone (sett : Nat) (entry : Nat) (s : State) : Out :=
  let f := s.fault sett entry
  if f.res != 1 then .next s
  else
    let again (s : State) : State :=
      (s.setFault sett entry { f with res := 0, seq := f.seq + 1, pst := false, opened := s.cycle }).schedule 0 45 (.faultServiceCardPost sett)
    match s.walk sett f.va with
    | .fault _ _ => .next (again s)
    | .leaf l =>
      match s.applyLeaf sett f.va 1 (accessOf f.access) l false with
      | .fault _ _ => .next (again s)
      | _ =>
        let s := (s.installWalk sett f.va l).setFault sett entry { f with res := 3, waiters := [] }
        .next (s.deliverLeaf (s.sortWaiters f.waiters) f.va l)

/-! ## TLB invalidation (R183, R339) -/

/-- A leaf covers an address. -/
def TlbEntry.hits (e : TlbEntry) (va : Nat) : Bool := e.covers va

/-- log2 of the largest page that a sett's TLBs hold for an address; 12 where they hold none. -/
def State.coveredSpan (s : State) (sett va : Nat) : Nat :=
  let all := (s.sett sett).stlb ++ (s.cores.filter (fun p => coreSett p.1 = sett)).flatMap (fun p => p.2.tlb)
  ((all.filter (fun e => e.hits va)).map (fun e => e.leaf.size)).foldl max 12

/-- Remove every translation that covers an address from a sett's TLBs and walk cache, and restart its walks. -/
def State.dropTranslation (s : State) (sett va : Nat) : State :=
  let s := s.modSett sett (fun t => { t with
    stlb := t.stlb.filter (fun e => !e.hits va)
    wcache := t.wcache.filter (fun w => w.2.1 != va / 2 ^ levelShift w.1) })
  { s with
    crews := s.crews.map (fun p => if crewSett p.1 = sett then (p.1, { p.2 with brought := p.2.brought.filter (fun e => !e.2.hits va) }) else p)
    cores := s.cores.map (fun p => if coreSett p.1 = sett then (p.1, { p.2 with tlb := p.2.tlb.filter (fun e => !e.hits va) }) else p)
    walks := s.walks.map (fun p => (p.1, p.2.map (fun w =>
      if w.sett = sett && w.va / 4096 = va / 4096 then { w with again := true } else w))) }

/-- Accesses that a sett translated with a removed entry and that are not performed yet. -/
def State.usesTranslation (s : State) (sett va span cycle self : Nat) : Bool :=
  s.reqs.any (fun p => match p.2 with
    | none => false
    | some r => p.1 != self && crewSett r.crew = sett && decide (r.issued ≤ cycle) && r.phase != 3 &&
        r.lanes.any (fun x => !x.done && x.target.isSome && !isNear x.va && x.va / 2 ^ span = va / 2 ^ span))

/-- TLBINV_APPLY: a sett applies an invalidation and acknowledges it once every access that used a removed entry has been
performed; the acknowledgement takes 40 fabric cycles from another sett. The host, 8, is sent an ATS invalidation and takes a free
number of cycles to complete it (log 24). -/
def execTlbinvApply (inv : Nat) (sett : Nat) (s : State) : Out :=
  match Tab.get none s.invs inv with
  | none => .next s
  | some x =>
    let home := crewSett x.crew
    if sett = 8 then
      let (d, s) := s.draw
      .next ((s.send (.ats home x.va)).schedule (Config.hostTime d).toNat 43 (.tlbinvAck inv 8))
    else
    let ack (s : State) (span cycle : Nat) : State :=
      if s.usesTranslation sett x.va span cycle x.req then s.schedule 1 42 (.tlbinvApply inv sett)
      else s.schedule (if sett = home then 1 else fabric 40) 43 (.tlbinvAck inv sett)
    match x.applied.find? (fun a => a.1 = sett) with
    | some a => .next (ack s a.2.1 a.2.2)
    | none =>
      let span := s.coveredSpan sett x.va
      let s := s.dropTranslation sett x.va
      let s := { s with invs := Tab.set none s.invs inv (some { x with applied := x.applied ++ [(sett, span, s.cycle)] }) }
      .next (ack s span s.cycle)

/-- TLBINV_ACK: with the last acknowledgement of its lanes the instruction leaves the stores counter. -/
def execTlbinvAck (inv : Nat) (sett : Nat) (s : State) : Out :=
  match Tab.get none s.invs inv with
  | none => .next s
  | some x =>
    let left := x.left.filter (· != sett)
    if left != [] then .next { s with invs := Tab.set none s.invs inv (some { x with left := left }) }
    else
      let s := { s with invs := Tab.set none s.invs inv none }
      let setts := (List.range 8).filter (fun q => x.byReset.testBit q)
      let reset := (if setts = [] then 0 else 2) + x.byReset % 256 * 256
      -- selector 2 tells of the crew's last TLBINV alone (R185)
      let note (s : State) (m : Nat) : State :=
        s.modCrew x.crew (fun c => if c.lastInv = x.req + 1 then { c with tlbinv := orBits c.tlbinv m } else c)
      let s := note s reset
      let s := match s.req x.req with
        | some r => (match r.lane x.lane with | some y => s.setLane x.req { y with done := true } | none => s)
        | none => s
      let all := match s.req x.req with | some r => r.lanes.all LaneReq.done | none => false
      let s := if all then note s 1 else s
      .next (s.finishReq x.req)

/-- Setts that a scope names (R183); 8 stands for the host. -/
def invSetts (own scope : Nat) : List Nat :=
  match scope with
  | 2 => [own]
  | 3 => List.range 8
  | _ => List.range 9

/-- SYS.tlbinv (R183), which its mode admits (R60). An address that is not canonical faults (R50). The host takes a
free number of cycles for its part (log 24). -/
def execSysTlbinv (px : Option Pfx) (sc : BitVec 3) (a : BitVec 7) (g : BitVec 4) (s : State) : Out :=
  let x : Instr := .sysTlbinv px sc a g
  s.issue x (fun u =>
    let c := s.crew u.crew
    let act := c.active x u.lanes
    if act = [] then .next (s.finish u x c)
    else
      match s.resolveLanes u ((act.filter (fun l => decide (2 ^ 56 ≤ c.laneAddr x l))).map (fun l => (l, c.laneAddr x l))) 1 .read with
      | .stop t => .next t
      | .ok _ =>
        let own := crewSett u.crew
        let s := s.finish u x (c.countReads (info x).readRegs act)
        let lanes : List LaneReq := act.map (fun l => { lane := l, va := c.laneAddr x l, target := none, out := true, free := true })
        let (id, s) := s.enter { c.loadReq x u .tlbinv s.cycle with size := 1, width := 0, scope := sc.toNat, lanes := lanes }
        let s := s.modCrew u.crew (fun c => { c with tlbinv := 0, lastInv := id + 1 })
        .next (act.foldl (fun s l =>
          let (n, s) := s.fresh
          let setts := invSetts own sc.toNat
          let v : TlbInv := { req := id, crew := u.crew, va := c.laneAddr x l, scope := sc.toNat, left := setts, lane := l }
          let s := { s with invs := Tab.set none s.invs n (some v) }
          setts.foldl (fun s q => s.schedule (256 + fabric 16 + (if q = own || q = 8 then 0 else fabric 40)) 42 (.tlbinvApply n q)) s) s))

/-! ## Job cards of a crew (R182) -/

/-- SYS.post: a release at .dev; the cards are read where they lie, then posted through the core's post buffer. -/
def execSysPost (px : Option Pfx) (a : BitVec 7) (g : BitVec 4) (s : State) : Out :=
  let x : Instr := .sysPost px a g
  s.issueMem x (s.memTrap x 64 .read (fun _ _ => false)) (fun u =>
    let c := s.crew u.crew
    let act := c.active x u.lanes
    if act = [] then .next (s.finish u x c)
    else
      match s.resolveLanes u (act.map (fun l => (l, c.laneAddr x l))) 64 .read with
      | .stop t => .next t
      | .ok ts =>
        let deps := s.releaseDeps u.crew
        let s := s.finish u x (c.countReads (info x).readRegs act).bumpRelease
        let (id, s) := s.enter { c.loadReq x u .post s.cycle with
          size := 64, width := 0, scope := 2, release := true, deps := deps, lanes := laneReqs s.cycle ts (fun _ => 0) }
        let cards : List PostCard := act.map (fun l => { crew := u.crew, pc := u.pc, lane := l, req := id, card := none })
        let s := s.modCore c.core (fun g => { g with post := g.post ++ cards })
        let s := s.touchTlb c.core (ts.map (fun t => t.2.1))
        .next (s.start id))

/-- Cards that have been read enter the post buffer's places. -/
def State.readCards (s : State) (core : Nat) : State :=
  let ids := ((s.core core).post.map PostCard.req).eraseDups
  ids.foldl (fun s id =>
    let s := ((s.arrive id).runLanes id (List.range 32) (fun s r x t => s.loadLane id r x t)).launch id
    match s.req id with
    | none => s
    | some r =>
      let read (p : PostCard) : PostCard :=
        if p.req = id && p.card.isNone then
          (match r.lane p.lane with | some y => if y.back then { p with card := some y.value } else p | none => p)
        else p
      s.modCore core (fun g => { g with post := g.post.map read })) s

/-- POST_BUFFER_DRAIN (R182, R313, R317): cards go to their queues in order; one whose queue is full waits, a faulty one is
discarded with a job-card fault, which waits with its card while the trap list is full. The lanes of an instruction are posted in
ascending order: a card that is not read yet holds those behind it. -/
def execPostBufferDrain (core : Nat) (s : State) : Out :=
  let s := s.readCards core
  let sett := coreSett core
  let (s, kept, again) := (s.core core).post.foldl (fun (acc : State × List PostCard × Bool) p =>
    let (s, kept, again) := acc
    match p.card with
    | none => (s, kept ++ [p], again)
    | some c =>
      if kept.any (fun y => y.req = p.req && y.card.isNone) then (s, kept ++ [p], again)
      else match s.postCard sett c with
      | .taken t => (t, kept, again)
      | .full => (s, kept ++ [p], again)
      | .bad =>
        match s.deferTrap p.crew .jobCard p.pc p.lane with
        | (true, t) => (t, kept, again)
        | (false, _) => (s, kept ++ [p], true)) (s, [], false)
  let ids := ((s.core core).post.map PostCard.req).eraseDups
  let s := s.modCore core (fun g => { g with post := kept })
  let s := if again then s.scheduleSub 1 46 (core % 128) (.postBufferDrain core) else s
  .next ((ids.filter (fun id => kept.all (fun p => p.req != id))).foldl (fun s id => s.finishReq id) s)

end Sys2Proof.Machine
end

