-- ==== Sys2Proof/Machine/Copies.lean ====
section
/-! DEFINITION. The copy engine (spec/06, R167 to R173; spec/09, R248, R249; spec/10, R264 to R269): descriptors, copies in
pieces, PUT, and PUBL. -/

namespace Sys2Proof.Machine

/-! ## Descriptors (R168, R169) -/

def dSrc (d : Nat) : Nat := bits d 63 0
def dDst (d : Nat) : Nat := bits d 127 64
def dRowBytes (d : Nat) : Nat := bits d 159 128
def dRows (d : Nat) : Nat := bits d 191 160
def dSstride (d : Nat) : Int := sext 64 (bits d 255 192)
def dDstride (d : Nat) : Int := sext 64 (bits d 319 256)
def dKind (d : Nat) : Nat := bits d 323 320
def dMask (d : Nat) : Nat := bits d 327 324
def dFmt (d : Nat) : Nat := bits d 331 328
def dHint (d : Nat) : Nat := bits d 333 332
def dScales (d : Nat) : Nat := bits d 447 384

/-- Bytes of one source block of kind 5 by element format (R169). -/
def blockBytes (fmt : Nat) : Nat := match fmt with | 2 | 3 => 24 | 4 => 16 | _ => 32

/-- Destination bytes of a row: 64 for each source block in kind 5 (R171). -/
def dDstBytes (d : Nat) : Nat := if dKind d = 5 then 64 * (dRowBytes d / blockBytes (dFmt d)) else dRowBytes d

/-- Classes of addresses as the untranslated address shows them. -/
inductive AddrCls where
  | far | pad | tile | other
deriving DecidableEq, Repr

def addrCls (va : Nat) : AddrCls :=
  if !isNear va then .far
  else match va % 2 ^ 24 / 2 ^ 21 with
    | 1 | 4 | 5 | 6 | 7 => .pad
    | 2 => .tile
    | _ => .other

/-- First byte of row i. -/
def rowAddr (base : Nat) (stride : Int) (i : Nat) : Nat := wrap 64 (base + i * stride)

/-- First and last byte of a copy's range, whatever the strides (R248). -/
def rangeOf (base : Nat) (stride : Int) (rows n : Nat) : Nat × Nat :=
  let last := rowAddr base stride (rows - 1)
  (min base last, max base last + n - 1)

/-- Class of a row of n bytes: none where it crosses into another class or another area of the near window (R169). -/
def rowCls (va n : Nat) : Option AddrCls :=
  if nearArea va = nearArea (va + n - 1) then some (addrCls va) else none

/-- Class that every row of a range has: none where a row crosses classes, or rows differ (R169). -/
def rangeCls (base : Nat) (stride : Int) (rows n : Nat) : Option AddrCls :=
  let first := rowCls base n
  if (List.range rows).all (fun i => rowCls (rowAddr base stride i) n = first) then first else none

/-- Source and destination classes of a kind (R169); kind 7 takes a scratchpad or a far source. -/
def kindOk (kind : Nat) (src dst : AddrCls) : Bool :=
  match kind with
  | 0 | 5 => src = .far && dst = .pad
  | 1 => src = .pad && dst = .far
  | 2 => src = .pad && dst = .pad
  | 3 => src = .far && dst = .tile
  | 4 => src = .pad && dst = .tile
  | 6 => src = .far && dst = .far
  | 7 => (src = .pad || src = .far) && dst = .far
  | _ => false

/-- The check of R167 and R169: a reason of the copy-descriptor trap. -/
def badDesc (d : Nat) (put : Bool) : Option Nat :=
  let kind := dKind d
  if bits d 511 448 != 0 || bits d 383 352 != 0 || bits d 351 334 != 0 || 7 < kind || (kind = 7) != put ||
      (kind != 5 && (dFmt d != 0 || dScales d != 0)) || (kind = 5 && decide (5 < dFmt d)) ||
      ((kind = 1 || kind = 6 || kind = 7) && dMask d != 0) then some 1
  else if dRows d = 0 || decide (65536 < dRows d) || dRowBytes d = 0 || decide (2 ^ 20 < dRowBytes d) ||
      (kind = 5 && dRowBytes d % blockBytes (dFmt d) != 0) then some 2
  else
    match rangeCls (dSrc d) (dSstride d) (dRows d) (dRowBytes d), rangeCls (dDst d) (dDstride d) (dRows d) (dDstBytes d) with
    | some a, some b => if kindOk kind a b then none else some 3
    | _, _ => some 3

/-! ## Reading a descriptor (R167) -/

/-- What reading 64 bytes in scratchpad or device memory gives. -/
inductive DescRead where
  | ok (v latency : Nat) (flags : NearFlags) (poison : Bool)
  | bad (reason : Nat)
  | miss
  | fault (kind level : Nat)
  /-- the bytes are recalled from their owner first -/
  | recall (sett addr : Nat)
deriving DecidableEq, Repr

/-- A descriptor or a parameter block: 40 cycles from a scratchpad, the latency of R31 from device memory. -/
def State.readDesc (s : State) (k va : Nat) : DescRead :=
  let core := (s.crew k).core
  if va % 64 != 0 then .bad 4
  else if isNear va then
    if addrCls va = .pad then
      let r := s.nearRead k core (va % 2 ^ 24) 64
      .ok r.1 40 r.2 (s.nearPoison k core (va % 2 ^ 24) 64)
    else .bad 3
  else match s.translateFor k va 64 .read with
    | .ok t =>
      (match t.place with
        | .hbm q a =>
          if q != crewSett k || t.window.isSome then .bad 3
          else if (s.keyOf q t.key).isNone then .fault 7 t.level
          else if !(s.homeReady q a 64).1 then .recall q a
          else .ok (s.memRead t 64).1 (if s.llcHit q a then 406 else 676) {} (s.poisoned q a 64)
        | _ => .bad 3)
    | .miss => .miss
    | .space => .bad 3
    | .fault kind level => .fault kind level

/-- A crew's descriptors, by lane, are read or stop their instruction. -/
inductive DescsRead where
  | ok (ds : List (Nat × Nat)) (latency : Nat) (s : State)
  | stop (s : State)

/-- The descriptors of the lanes, judged by `bad` (R141, R167): the lowest reason of the first lane that fails, then the faults.
`far` are the lanes' other addresses, of which bits 63:56 have to be zero (R50, R140). -/
def State.readDescs (s : State) (u : Issue) (lanes : List (Nat × Nat)) (far : List (Nat × Nat)) (bad : Nat → Option Nat) : DescsRead :=
  let rs := lanes.map (fun x => (x.1, x.2, s.readDesc u.crew x.2))
  let miss := rs.filter (fun r => match r.2.2 with | .miss => true | _ => false)
  let flags := rs.foldl (fun f r => match r.2.2 with | .ok _ _ g _ => f.or g | _ => f) ({} : NearFlags)
  let note (s : State) : State := s.modCrew u.crew (fun c => c.noteFlags flags)
  let wrong := rs.findSome? (fun r => match r.2.2 with
    | .bad why => some (r.1 + 256 * why)
    | .ok d _ _ _ => (bad d).map (fun why => r.1 + 256 * why)
    | _ => none)
  let fault := rs.findSome? (fun r => match r.2.2 with | .fault kind level => some (r.1, r.2.1, kind, level) | _ => none)
  if miss != [] then
    .stop (((miss.map (fun r => r.2.1 / 4096)).eraseDups).foldl (fun s p => s.instrMiss u.crew u.pc (4096 * p) .read u.lanes) s)
  else match wrong with
    | some why => .stop ((note s).takeTrap u.crew .copyDesc u.pc why (some u.lanes))
    | none => match fault with
      | some (l, va, kind, level) => .stop (s.instrFault u.crew u.pc va kind level .read u.lanes (maskOf [l]))
      | none => match far.find? (fun x => decide (2 ^ 56 ≤ x.2)) with
        | some (_, va) =>
          .stop (s.instrFault u.crew u.pc va 5 0 .write u.lanes (maskOf ((far.filter (fun x => decide (2 ^ 56 ≤ x.2))).map Prod.fst)))
        | none => match rs.findSome? (fun r => match r.2.2 with | .recall q a => some (q, a) | _ => none) with
          | some (q, a) => .stop (s.homeReady q a 64).2
          | none =>
            if rs.any (fun r => match r.2.2 with | .ok _ _ _ p => p | _ => false) then .stop (s.consumePoison u.crew 8)
            else .ok (rs.filterMap (fun r => match r.2.2 with | .ok d _ _ _ => some (r.1, d) | _ => none))
              (rs.foldl (fun m r => match r.2.2 with | .ok _ t _ _ => max m t | _ => m) 0) (note s)

/-! ## COPY and PUT (R170, R172) -/

/-- Second address of a lane: the barrier of a COPY, the counter of a PUT. -/
def Crew.otherAddr (c : Crew) (x : Instr) (l : Nat) : Nat := c.operand ((info x).srcs[1]?.getD (0, 2)) (0, 0) l

/-- A misaligned barrier or counter traps before any descriptor is judged (R140, R141). -/
def State.copyTrap (s : State) (x : Instr) (put : Bool) (u : Issue) : Option (Trap × Nat) :=
  let c := s.crew u.crew
  let odd := (c.active x u.lanes).filter (fun l => c.otherAddr x l % (if put then 8 else 16) != 0)
  if odd != [] then some (.misaligned, (maskOf odd).toNat) else none

/-- A copy of one lane enters the engine. -/
def State.enterCopy (s : State) (c : Copy) : Nat × State :=
  let (id, s) := s.fresh
  (id, (s.setCopy id (some c)).modCore c.core (fun g => { g with copies := g.copies ++ [id] }))

/-- The frame of COPY and PUT. -/
def copyInstr (x : Instr) (put : Bool) (s : State) : Out :=
  s.issueMem x (s.copyTrap x put) (fun u =>
    let c := s.crew u.crew
    let act := c.active x u.lanes
    if act = [] then .next (s.finish u x c)
    else
      match s.readDescs u (act.map (fun l => (l, c.laneAddr x l))) (act.map (fun l => (l, c.otherAddr x l))) (badDesc · put) with
      | .stop t => .next t
      | .ok ds lat s =>
        let k := ((s.crew u.crew).countReads (info x).readRegs act).bump false
        let s := s.finish u x { k with copies := k.copies + 1, nextAt := s.cycle + lat }
        let (grp, s) := s.fresh
        let s := { s with groups := Tab.set none s.groups grp (some { crew := u.crew, left := act.length }) }
        let stamp := s.stampOf u.crew (crewSett u.crew)
        .next (ds.foldl (fun s d =>
          let (id, s) := s.enterCopy
            { crew := u.crew, core := c.core, pc := u.pc, lane := d.1, group := grp, desc := d.2, barrier := c.otherAddr x d.1, put := put,
              stamp := { stamp with lane := d.1 }, frontier := c.frontier }
          s.schedule lat 33 (.copyStart id)) s))

/-- COPY (R170). -/
def execCopy (px : Option Pfx) (a : BitVec 7) (b : BitVec 7) (g : BitVec 4) (s : State) : Out :=
  copyInstr (.copy px a b g) false s

/-- PUT (R172). -/
def execPut (px : Option Pfx) (a : BitVec 7) (b : BitVec 7) (g : BitVec 4) (s : State) : Out :=
  copyInstr (.put px a b g) true s

/-! ## Targets (R170, R267) -/

/-- Cluster core that a destination address without mcmask names: the one whose window it lies in, or the own. -/
def Copy.coreOf (c : Copy) (va : Nat) : Nat := if nearArea va = 8 || nearArea va < 4 then c.core % 4 else nearArea va - 4

/-- Cluster cores, 0 to 3, that a copy aims at: mcmask, or those that its rows name. -/
def Copy.aims (c : Copy) : List Nat :=
  let d := c.desc
  let (lo, hi) := rangeOf (dDst d) (dDstride d) (dRows d) (dDstBytes d)
  if isNear (dDst d) && dMask d != 0 then (List.range 4).filter (fun k => (dMask d).testBit k)
  else if nearArea lo = nearArea hi then [c.coreOf (dDst d)]
  else ((List.range (dRows d)).map (fun i => c.coreOf (rowAddr (dDst d) (dDstride d) i))).eraseDups

/-- Those at which a piece of the row in progress lands. -/
def Copy.rowAims (c : Copy) : List Nat :=
  if isNear (dDst c.desc) && dMask c.desc != 0 then c.aims else [c.coreOf (rowAddr (dDst c.desc) (dDstride c.desc) c.row)]

/-- The gang's block on cluster core k of a copy. -/
def State.copyBlock (s : State) (c : Copy) (k : Nat) : Option Nat :=
  s.gangBlockOn (crewSett c.crew) (crewRec c.crew) (4 * (c.core / 4) + k)

/-- A target can be reached: its block is there, its core is not fenced, and every slot of the range stands in storage mode. -/
def State.reachable (s : State) (c : Copy) (k : Nat) : Bool :=
  match s.copyBlock c k with
  | none => false
  | some b =>
    let (lo, hi) := rangeOf (dDst c.desc % 2 ^ 21) (dDstride c.desc) (dRows c.desc) (dDstBytes c.desc)
    !(s.core (4 * (c.core / 4) + k)).fenced &&
    (addrCls (dDst c.desc) != .tile || ((s.block b).slots.filter (fun p => decide (lo / 16384 ≤ p.1) && decide (p.1 ≤ hi / 16384))).all
      (fun p => !p.2.compute))

/-- The barrier that counts a target's bytes: the block and offset at the same near-window address (R170). -/
def State.copyBarrier (s : State) (c : Copy) (k : Nat) : Option (Nat × Nat) :=
  if c.put || c.barrier = 0 || addrCls c.barrier != .pad then none
  else
    let area := c.barrier % 2 ^ 24 / 2 ^ 21
    let k := if 4 ≤ area then area - 4 else k
    match s.copyBlock c k with
    | none => none
    | some b => match s.padPlace b (c.barrier % 2 ^ 21) with
      | .pad q o => some (q, o)
      | _ => none

/-- An update of a target's barrier by the engine; for another core than the engine's it is an outside input (R417). -/
def State.copyUpdate (s : State) (c : Copy) (k : Nat) (u : BarUpdate) : State :=
  match s.copyBarrier c k with
  | none => s
  | some (b, o) =>
    let own := decide ((s.block b).core = c.core)
    let start := if own then c.started.getD 0 else 0
    let code : Nat × Nat := match u with
      | .land n => (3, n) | .break_ => (4, 0) | .arrive => (1, 0) | .expect n => (2, n) | .init a b => (0, a + 2 ^ 32 * b)
    let s := s.redo (s.block b).core (.barrier start b o code.1 code.2)
    s.updateBarrier b o u own

/-- A barrier instruction of the crew that preceded the copy is still on its way to the barrier (R163). -/
def State.barrierAhead (s : State) (id : Nat) (c : Copy) (k : Nat) : Bool :=
  match s.copyBarrier c k with
  | none => false
  | some (b, o) => (s.crewReqs c.crew).any (fun p => decide (p.1 < id) &&
      (match p.2.kind with | .binit | .arv _ | .bexp => true | _ => false) &&
      p.2.lanes.any (fun x => !x.done && x.target.any (fun t => t.place = .pad b o)))

/-- Bytes that have landed at a target are counted, or owed while an earlier barrier instruction is on its way (R163, R266). -/
def State.creditLand (s : State) (id k n : Nat) : State :=
  match s.copy id with
  | none => s
  | some c =>
    if s.barrierAhead id c k then
      (s.modCopy id (fun x => { x with owed := x.owed ++ [(k, n)] })).schedule 1 33 (.copyRetire id)
    else s.copyUpdate c k (.land n)

/-- What is owed is counted as soon as it may be. -/
def State.payOwed (s : State) (id : Nat) : State :=
  match s.copy id with
  | none => s
  | some c => c.owed.foldl (fun s p => s.creditLand id p.1 p.2) (s.modCopy id (fun x => { x with owed := [] }))

/-- All pieces have been taken. -/
def Copy.spent (c : Copy) : Bool := decide (dRows c.desc ≤ c.row)

/-- A copy that has ended in every respect retires. -/
def State.copyCheck (s : State) (id : Nat) : State :=
  match s.copy id with
  | some c => if (c.spent || c.fault.isSome) && c.flying = 0 then s.schedule 0 33 (.copyRetire id) else s
  | none => s

/-! ## Start (R264, R265, R248) -/

/-- Where an engine's address outside the near window lies, whether or not the core's TLB holds its page. -/
def State.seekTarget (s : State) (c : Copy) (va n : Nat) (acc : Access) : Xlate :=
  match s.translate (crewSett c.crew) c.core va n acc with
  | .miss => s.engineTarget (crewSett c.crew) va n acc
  | x => x

/-- Latency of the first piece (R265, R460). -/
def State.copyLatency (s : State) (c : Copy) : Nat :=
  let src := dSrc c.desc
  if isNear src then (if nearCore c.core (src % 2 ^ 24) = c.core then 20 else 48)
  else match s.seekTarget c src 1 .read with
    | .ok t => (match t.place with
        | .hbm q a => (if s.llcHit q a then 406 else 676) + (if q = crewSett c.crew then 0 else 120)
        | .remote w _ => 676 + 120 + 2 * (s.link ((windowOf (s.sett (crewSett c.crew)) w).link)).latency
        | _ => 406)
    | _ => 406

/-- Bytes that land in a cycle on the copy's route (R265). -/
def State.copyRate (s : State) (c : Copy) : Nat :=
  let d := c.desc
  let own := [c.core % 4]
  let across (va : Nat) : Bool := !isNear va && (match s.seekTarget c va 1 .read with
    | .ok t => (match t.place with | .remote _ _ => true | _ => false)
    | _ => false)
  if dMask d != 0 && c.aims != own then 32
  else if (isNear (dSrc d) && nearCore c.core (dSrc d % 2 ^ 24) != c.core) || c.aims != own then 48
  else if isNear (dSrc d) && isNear (dDst d) then 128
  else if across (dSrc d) || (c.put && across (dDst d)) then 54
  else 64

/-- The scoreboard entries of a copy (R248): source and destination at the issuer, the destination at each other target `good`. -/
def State.copyScores (s : State) (id : Nat) (c : Copy) (good : List Nat) : State :=
  let d := c.desc
  let gang := crewRec c.crew
  let (sl, sh) := rangeOf (dSrc d) (dSstride d) (dRows d) (dRowBytes d)
  let (dl, dh) := rangeOf (dDst d) (dDstride d) (dRows d) (dDstBytes d)
  let s := s.modCore c.core (fun g => { g with score := g.score ++ [⟨id, sl, sh, gang⟩, ⟨id, dl, dh, gang⟩] })
  if !isNear (dDst d) then s
  else
    let base := nwb + (if addrCls (dDst d) = .tile then 2 else 1) * 2 ^ 21
    let others := (good.map (4 * (c.core / 4) + ·)).filter (· != c.core)
    forEach others s (fun g t => t.modCore g (fun x => { x with
      score := x.score ++ [⟨id, base + dl % 2 ^ 21, base + dl % 2 ^ 21 + (dh - dl), gang⟩] }))

/-- COPY_START (R170, R264, R267): the reachability of each target is judged, and the first piece is due after the source's
latency, no earlier than 257 cycles on for another core's scratchpad (R280). -/
def execCopyStart (copy : Nat) (s : State) : Out :=
  match s.copy copy with
  | none => .next s
  | some c =>
    if c.started.isSome then .next s
    else if (s.core c.core).restoring.isSome then .next (s.schedule 1 33 (.copyStart copy))
    else
    let c := { c with started := some s.cycle }
    let good := c.aims.filter (s.reachable c)
    let lost := c.aims.filter (fun k => !s.reachable c k)
    let c := { c with reached := good.foldl (fun m k => m ||| 2 ^ k) 0, missed := lost.foldl (fun m k => m ||| 2 ^ k) 0 }
    let s := forEach lost s (fun k t => t.copyUpdate c k .break_)
    let s := (s.setCopy copy (some c)).copyScores copy c good
    if isNear (dDst c.desc) && good = [] then .next ((s.setCopy copy (some { c with row := dRows c.desc })).copyCheck copy)
    else
      let other := isNear (dDst c.desc) && good.any (fun k => k != c.core % 4)
      let t := s.copyLatency c
      .next (s.schedule (if other then max t 257 else t) 33 (.copyPieceLand copy 0))

/-! ## Pieces (R264 to R266) -/

/-- Source bytes and destination bytes of the piece at (row, off); `off` counts source bytes. -/
def Copy.pieceSize (c : Copy) : Nat × Nat :=
  let d := c.desc
  let src := rowAddr (dSrc d) (dSstride d) c.row + c.off
  if dKind d = 5 then
    let bb := blockBytes (dFmt d)
    let dst := rowAddr (dDst d) (dDstride d) c.row + 64 * (c.off / bb)
    let left := (dRowBytes d - c.off) / bb
    let n := max 1 ((List.range (min 4 left)).filter (fun j => (dst + 64 * j) / 256 = dst / 256)).length
    (n * bb, 64 * n)
  else
    let dst := rowAddr (dDst d) (dDstride d) c.row + c.off
    let n := min (dRowBytes d - c.off) (min (256 - src % 256) (256 - dst % 256))
    (n, n)

/-- Value of an element of an MX block of kind 5 (R74, R171). -/
def mxValue (fmt raw : Nat) : FVal :=
  match fmt with
  | 0 => Fmt.e4m3.decode false raw
  | 1 => Fmt.e5m2.decode false raw
  | 2 => Fmt.e2m3.decode false raw
  | 3 => Fmt.e3m2.decode false raw
  | 4 => Fmt.e2m1.decode false raw
  | _ => let v := sext 8 raw
         .fin (v < 0) v.natAbs (-6)

/-- Bits of one element. -/
def mxBits (fmt : Nat) : Nat := match fmt with | 2 | 3 => 6 | 4 => 4 | _ => 8

/-- A block of 32 elements under its scale byte, as 64 bytes of BF16 (R171). -/
def decompress (fmt raw scale : Nat) : Nat :=
  (List.range 32).foldr (fun k acc =>
    let v := mxValue fmt (raw / 2 ^ (mxBits fmt * k) % 2 ^ mxBits fmt)
    Fmt.bf16.round 0 (v.scale (e8m0 scale)) + 2 ^ 16 * acc) 0

/-- What one read of an engine gives: the bytes, whether they are poisoned, or why not and at which address. -/
inductive EngineRead where
  | ok (v : Nat) (poison : Bool)
  | retry
  | miss (va : Nat)
  | fault (va kind level : Nat)

/-- The engine reads n bytes within one page for a copy; `near` places are seen from its core, others through its core's TLB; a
read of the gap gives zeros (R245). Host memory is no source of any kind (R169, R170). -/
def State.loadPart (s : State) (c : Copy) (va n : Nat) : EngineRead × State :=
  if isNear va then
    if nearCore c.core (va % 2 ^ 24) != c.core && s.tooYoung c.crew c.core (va % 2 ^ 24) n then (.retry, s)
    else (.ok (s.nearRead c.crew c.core (va % 2 ^ 24) n).1 (s.nearPoison c.crew c.core (va % 2 ^ 24) n), s)
  else
    let sett := crewSett c.crew
    match s.translate sett c.core va n .read with
    | .miss => (.miss va, s)
    | .space => (.fault va 8 0, s)
    | .fault kind level => (.fault va kind level, s)
    | .ok t =>
      let only := dKind c.desc = 6 || dKind c.desc = 7
      match t.place with
      | .hbm q a =>
        if only && (q != sett || t.window.isSome || t.rep) then (.fault va 8 t.level, s)
        else match s.placeKind (crewSett c.crew) t with
          | some kind => (.fault va kind t.level, s)
          | none =>
            let (ok, s) := s.homeReady q a n
            if !ok then (.retry, s)
            else
              let bad := s.poisoned q a n
              let (v, s) := s.memRead t n
              (.ok v bad, s.llcTouch q a (dHint c.desc) t.cache)
      | .remote _ _ =>
        if only then (.fault va 8 t.level, s)
        else
          let (d, s) := s.draw
          (.ok ((List.range n).foldr (fun b v => (Config.remote d b).toNat % 256 + 256 * v) 0) false, s)
      | _ => (.fault va 8 t.level, s)

/-- The engine reads n bytes, each page on its own. -/
def State.engineLoad (s : State) (c : Copy) (va n : Nat) : EngineRead × State :=
  let m := 4096 - va % 4096
  if isNear va || n ≤ m then s.loadPart c va n
  else match s.loadPart c va m with
    | (.ok v p, s) => (match s.loadPart c (wrap 64 (va + m : Nat)) (n - m) with
        | (.ok w q, s) => (.ok (v + 256 ^ m * w) (p || q), s)
        | x => x)
    | x => x

/-- The bytes of a piece as they will be written: kind 5 reads the scale bytes too. -/
def State.pieceData (s : State) (c : Copy) (n : Nat) : EngineRead × State :=
  let d := c.desc
  let src := wrap 64 (rowAddr (dSrc d) (dSstride d) c.row + c.off : Nat)
  match s.engineLoad c src n with
  | (.ok v p, s) =>
    if dKind d != 5 then (.ok v p, s)
    else
      let bb := blockBytes (dFmt d)
      let perRow := dRowBytes d / bb
      (match s.engineLoad c (wrap 64 (dScales d + c.row * perRow + c.off / bb : Nat)) (n / bb) with
        | (.ok sc q, s) =>
          (.ok ((List.range (n / bb)).foldr (fun j acc =>
            decompress (dFmt d) (v / 2 ^ (8 * bb * j) % 2 ^ (8 * bb)) (sc / 256 ^ j % 256) + 2 ^ 512 * acc) 0) (p || q), s)
        | x => x)
  | x => x

/-- Write a piece at one target core, byte by byte: wrapped, and dropped in the gap (R244, R245). Poisoned data poisons the sectors of
tile slots (R422). -/
def State.landAt (s : State) (c : Copy) (k n v : Nat) (bad : Bool) : State × NearFlags :=
  match s.copyBlock c k with
  | none => (s, {})
  | some b =>
    let d := c.desc
    let o := rowAddr (dDst d) (dDstride d) c.row % 2 ^ 21 + (if dKind d = 5 then 64 * (c.off / blockBytes (dFmt d)) else c.off)
    let place (e : Nat) : Place :=
      if addrCls (dDst d) = .tile then
        (if (o + e) / 16384 < (s.block b).arrays then .tile b (o + e) else .gap)
      else s.padPlace b (o + e)
    let own := decide ((s.block b).core = c.core)
    let (s, f) := (List.range n).foldl (fun (acc : State × NearFlags) e =>
      let (t, g) := acc.1.putByte (place e) (v / 256 ^ e % 256)
      (t, acc.2.or g)) (s, ({} : NearFlags))
    let start := if own then c.started.getD 0 else 0
    let s := match place 0 with
      | .pad q e => (s.redo (s.block b).core (.pad start q e n v)).markBlock q ((place 0).sectors n true) false
      | .tile q e =>
        let s := s.redo (s.block b).core (.tile start q e n v)
        if bad then s.markBlock q ((place 0).sectors n false) true else s.markBlock q ((place 0).sectors n true) false
      | _ => s
    (s, f)

/-- The copy goes on to its next piece, or has none left. -/
def Copy.advanced (c : Copy) : Copy :=
  let (n, _) := c.pieceSize
  let c := { c with piece := c.piece + 1 }
  if c.off + n < dRowBytes c.desc then { c with off := c.off + n } else { c with row := c.row + 1, off := 0 }

/-- A fault that a copy meets: a replayable one makes it wait, another one ends it (R170). -/
def State.copyFault (s : State) (id : Nat) (c : Copy) (va kind level : Nat) (acc : Access) : State :=
  let s := s.modCopy id (fun x => { x with parked := true })
  s.faultWaiter (crewSett c.crew) (.copy id acc va) va kind level

def State.copyMiss (s : State) (id : Nat) (c : Copy) (va : Nat) (acc : Access) : State :=
  (s.modCopy id (fun x => { x with parked := true })).startWalk (crewSett c.crew) c.core va acc (.copy id acc va)

/-- The request of a piece that is written outside the near window: an engine write that leaves after the strike window. -/
def State.sendPiece (s : State) (id : Nat) (c : Copy) (va n v : Nat) (t : Target) (bad : Bool) : State :=
  match t.place with
  | .remote _ _ =>
    let (rid, s) := s.fresh
    let r : Req :=
      { kind := .store, crew := c.crew, pc := c.pc, size := n, dst := id + 1, width := c.piece, issued := s.cycle, phase := 2,
        lanes := [{ lane := c.lane, va := va, target := some t, data := v, out := true, free := true }] }
    (s.setReq rid (some r)).schedule (256 + 75 + 60) 32 (.putPiecePerformed id c.piece)
  | .hbm q _ =>
    let (rid, s) := s.fresh
    let far := t.window.isSome
    let r : Req :=
      { kind := .store, crew := c.crew, pc := c.pc, size := n, dst := id + 1, width := c.piece, issued := s.cycle, phase := 2,
        stamp := { c.stamp with src := if q = crewSett c.crew then 0 else 1 }, frontier := c.frontier, told := c.refused, poison := bad,
        lanes := [{ lane := c.lane, va := va, target := some t, data := v, out := true, free := true }] }
    (s.setReq rid (some r)).schedule (256 + 75 + (if far then 60 else 0)) homeKey (.wr q rid)
  | _ => s

/-- Another copy of the core whose turn comes before this one's has a piece to take in this cycle: pieces are taken in turn, one
from each copy, in the order in which the copies started (R264). -/
def State.turnBefore (s : State) (id : Nat) (c : Copy) : Bool :=
  let last := (s.core c.core).lastCopy
  let rank (j : Nat) : Nat × Nat := (if last < j then 0 else 1, j)
  s.agenda.any (fun t => decide (t.due ≤ s.cycle) && (match t.ev with
    | .copyPieceLand j p => j != id && (let a := rank j
                                        let b := rank id
                                        decide (a.1 < b.1) || (a.1 = b.1 && decide (a.2 < b.2))) && (match s.copy j with
        | some x => x.core = c.core && x.piece = p && !x.parked && x.fault.isNone && !x.spent
        | none => false)
    | _ => false))

/-- A piece lands at the targets of its row that can still be reached, and their barriers count it; those that have become
unreachable have theirs broken, and their entries leave their scoreboards (R249, R266, R267). -/
def State.landPiece (s : State) (id : Nat) (c : Copy) (m v : Nat) (bad : Bool) : State :=
  let g (k : Nat) : Nat := 4 * (c.core / 4) + k
  let ks := c.rowAims.filter (fun k => c.reached.testBit k)
  let gone := ks.filter (fun k => (s.core (g k)).fenced || (s.copyBlock c k).isNone)
  let s := s.modCopy id (fun x => { x with
    reached := gone.foldl (fun r k => r - 2 ^ k) x.reached
    missed := gone.foldl (fun r k => r ||| 2 ^ k) x.missed })
  let s := forEach gone s (fun k t =>
    let t := t.copyUpdate c k .break_
    if g k = c.core then t else t.modCore (g k) (fun x => { x with score := x.score.filter (fun e => e.copy != id) }))
  (ks.filter (fun k => !gone.contains k)).foldl (fun s k =>
    let (t, f) := s.landAt c k m v bad
    (t.modCopy id (fun x => { x with flags := x.flags.or { f with modemiss := false } })).creditLand id k m) s

/-- COPY_PIECE_LAND (R264 to R266): the engine takes the copy's next piece, writes it at every reachable target and credits
the barriers; a piece for device or peer memory is credited once it has been performed there. -/
def execCopyPieceLand (copy : Nat) (piece : Nat) (s : State) : Out :=
  match s.copy copy with
  | none => .next s
  | some c =>
    let g := s.core c.core
    if c.piece != piece || c.parked || c.fault.isSome || c.spent then .next s
    else if s.cycle < g.routeFree then .next (s.schedule (g.routeFree - s.cycle) 33 (.copyPieceLand copy piece))
    else if g.restoring.isSome then .next (s.schedule 1 33 (.copyPieceLand copy piece))
    else if s.turnBefore copy c then .next (s.schedule 0 33 (.copyPieceLand copy piece))
    else
      let d := c.desc
      let (n, m) := c.pieceSize
      let dst := wrap 64 (rowAddr (dDst d) (dDstride d) c.row + (if dKind d = 5 then 64 * (c.off / blockBytes (dFmt d)) else c.off) : Nat)
      let (v, s) := s.pieceData c n
      match v with
      | .retry => .next (s.schedule 1 33 (.copyPieceLand copy piece))
      | .miss va => .next (s.copyMiss copy c va .read)
      | .fault va kind level => .next (s.copyFault copy c va kind level .read)
      | .ok v bad =>
        let busy := (m + s.copyRate c - 1) / s.copyRate c
        let next := c.advanced
        let go (s : State) (fly : Nat) : State :=
          let s := (s.modCopy copy (fun x => { x with piece := next.piece, row := next.row, off := next.off, flying := x.flying + fly })).modCore
            c.core (fun g => { g with routeFree := s.cycle + busy, lastCopy := copy })
          if next.spent then s.copyCheck copy else s.schedule busy 33 (.copyPieceLand copy next.piece)
        if isNear dst then
          let s := go (s.landPiece copy c m v bad) 0
          .next (if bad && addrCls dst = .pad then s.consumePoison c.crew 1 else s)
        else
          match s.translate (crewSett c.crew) c.core dst m .write true with
          | .miss => .next (s.copyMiss copy c dst .write)
          | .space => .next (s.copyFault copy c dst 8 0 .write)
          | .fault kind level => .next (s.copyFault copy c dst kind level .write)
          | .ok t =>
            let peer := t.window.isSome
            let hbm := match t.place with | .hbm _ _ => true | .remote _ _ => true | _ => false
            if !hbm || peer != c.put || t.rep then .next (s.copyFault copy c dst 8 t.level .write)
            else .next ((go s 1).sendPiece copy c dst m v t bad)

/-! ## Ends -/

/-- A counter in scratchpad or device memory rises (R172); false where its home has to wait. A counter that meets a fault ends the
copy as its pieces' faults do. -/
def State.raiseCounter (s : State) (id : Nat) (c : Copy) (n : Nat) : Bool × State :=
  if isNear c.barrier then
    let off := c.barrier % 2 ^ 24
    let (old, f) := s.nearRead c.crew c.core off 8
    let (t, _) := s.nearWrite c.crew c.core off (old + n) 8
    let t := t.modCopy id (fun x => { x with flags := x.flags.or f })
    (true, match s.nearPlace c.crew c.core off with
      | some (.pad b o) => if nearCore c.core off = c.core then t else t.redo (nearCore c.core off) (.pad 0 b o 8 (old + n))
      | _ => t)
  else
    let failed (kind level : Nat) : Bool × State :=
      if c.fault.isSome then (true, s) else if c.parked then (false, s) else (false, s.copyFault id c c.barrier kind level .write)
    match s.seekTarget c c.barrier 8 .write with
    | .ok t =>
      (match t.place with
        | .hbm q a =>
          if q != crewSett c.crew || t.window.isSome then failed 8 t.level
          else match s.placeKind (crewSett c.crew) t with
            | some kind => failed kind t.level
            | none => s.homeAdd q a n t.key
        | _ => failed 8 t.level)
    | .fault kind level => failed kind level
    | _ => failed 8 0

/-- Bytes of the piece of a number, counted from the copy's first one. -/
def Copy.nth (c : Copy) : Nat → Nat
  | 0 => c.pieceSize.2
  | n + 1 => Copy.nth c.advanced n

/-- A piece for another module leaves through the link once the strike window has passed it. -/
def State.sendRemote (s : State) (copy piece : Nat) : State :=
  forEach (s.reqs.filter (fun p => match p.2 with | some r => r.phase = 2 && r.dst = copy + 1 && r.width = piece | none => false)) s
    (fun p t => match p.2 with
      | some r => (match r.lanes with
          | x :: _ => (match x.target with
              | some y => (match y.place with
                  | .remote _ _ => (t.toRemote r 1 0 x y).setReq p.1 none
                  | _ => t)
              | none => t)
          | [] => t)
      | none => t)

/-- PUT_PIECE_PERFORMED (R172, R266, R353): a piece outside the near window has been performed; a PUT's counter rises, a copy's
bytes are credited at the issuing core's barrier. -/
def execPutPiecePerformed (copy : Nat) (piece : Nat) (s : State) : Out :=
  match s.copy copy with
  | none => .next s
  | some c =>
    if c.piece ≤ piece then .next s
    else
      let n := ({ c with piece := 0, row := 0, off := 0 }).nth piece
      let (ok, t) := if c.put then s.raiseCounter copy c n else (true, s.creditLand copy (c.core % 4) n)
      if !ok then .next (t.schedule 1 32 (.putPiecePerformed copy piece))
      else .next (((t.sendRemote copy piece).modCopy copy (fun x => { x with flying := x.flying - 1 })).copyCheck copy)

/-- COPY_RETIRE (R170, R267): bytes that are owed are counted; a copy that has ended in every respect has its scoreboard entries
removed and the issuer's status bits set; one that a fault ended breaks its phases and raises a copy-fault trap, and stays while the
trap list is full (R348). -/
def execCopyRetire (copy : Nat) (s : State) : Out :=
  let s := s.payOwed copy
  match s.copy copy with
  | none => .next s
  | some c =>
    if !((c.spent || c.fault.isSome) && c.flying = 0 && c.owed = []) then .next s
    else
      let trap : Bool × State := match c.fault with
        | some e => s.deferTrap c.crew .copyFault c.pc e (some e)
        | none => (true, s)
      if !trap.1 then .next (s.schedule 1 33 (.copyRetire copy))
      else
        let s := trap.2
        let s := if c.fault.isSome then forEach ((List.range 4).filter (fun k => c.reached.testBit k)) s (fun k t => t.copyUpdate c k .break_) else s
        let clean (g : Core) : Core :=
          { g with score := g.score.filter (fun e => e.copy != copy), copies := g.copies.filter (· != copy) }
        let s := { s with cores := s.cores.map (fun (p : Nat × Core) => (p.1, clean p.2)) }
        let s := s.modCrew c.crew (fun k =>
          let k := (if c.missed = 0 then k else { k with status := orBits k.status (c.missed * 2 ^ 8) }).noteFlags c.flags
          if c.missed != 0 && c.reached != 0 then k.setStatus .mcpart else k)
        let s := ((s.redo c.core (.copied copy c)).setCopy copy none).groupDone c.group
        .next (s.checkEnd c.crew)

/-! ## PUBL (R173, R269) -/

/-- PUBL acts on addresses of shadowed pages only. -/
def noShadow (va : Nat) (t : Target) : Bool := isNear va || (t.place != .gap && !t.sh)

/-- PUBL (R173): a release at .dev, then the frames of each distinct buffer change places in the order of its first lane. -/
def execPubl (px : Option Pfx) (a : BitVec 7) (g : BitVec 4) (s : State) : Out :=
  let x : Instr := .publ px a g
  s.issueMem x (s.memTrap x 1 .read noShadow) (fun u =>
    let c := s.crew u.crew
    let act := c.active x u.lanes
    if act = [] then .next (s.finish u x c)
    else
      match s.resolveLanes u (act.map (fun l => (l, c.laneAddr x l))) 1 .read with
      | .stop t => .next t
      | .ok ts =>
        let bufs := ts.foldl (fun (acc : List (Nat × Nat × Target)) t => if acc.any (fun y => y.2.2.buf = t.2.2.buf) then acc else acc ++ [t]) []
        let deps := s.releaseDeps u.crew
        let k := (c.countReads (info x).readRegs act).bumpRelease
        let s := s.finish u x { k with copies := k.copies + 1 }
        let (grp, s) := s.fresh
        let s := { s with groups := Tab.set none s.groups grp (some { crew := u.crew, left := 1 }) }
        let (id, s) := s.enter { c.loadReq x u .publ s.cycle with
          size := 1, width := 0, scope := 2, release := true, deps := deps, group := grp, lanes := laneReqs s.cycle bufs (fun _ => 0) }
        .next ((s.touchTlb c.core (ts.map (fun t => t.2.1))).start id))

end Sys2Proof.Machine
end

