-- ==== Sys2Proof/Machine/Collect.lean ====
section
/-! DEFINITION. The collective engine (spec/06, R174, R184; spec/17, R379 to R381): COLL, its packets, completion and
abort. -/

namespace Sys2Proof.Machine

/-! ## Descriptors (R174) -/

def lDone (d : Nat) : Nat := bits d 383 320
def lCount (d : Nat) : Nat := bits d 287 256
def lRecv (d : Nat) : Nat := bits d 255 192
def lSend (d : Nat) : Nat := bits d 191 128
def lGroup (d : Nat) : Nat := bits d 127 64
def lRed (d : Nat) : Nat := bits d 11 8
def lType (d : Nat) : Nat := bits d 7 4
def lOp (d : Nat) : Nat := bits d 3 0

/-- Reason of the copy-descriptor trap (R167, R379). -/
def State.badColl (s : State) (sett d : Nat) : Option Nat :=
  if bits d 511 384 != 0 || bits d 319 288 != 0 || bits d 63 12 != 0 || decide (2 < lOp d) || decide (4 < lType d) ||
      decide (2 < lRed d) || (lOp d = 1 && lRed d != 0) || lDone d % 8 != 0 || decide (255 < lGroup d) ||
      !(s.group sett (lGroup d)).v then some 1
  else if lCount d = 0 || decide (2 ^ 30 < lCount d) then some 2
  else if isNear (lSend d) || isNear (lRecv d) || isNear (lDone d) then some 3
  else none

/-- Bytes of an element. -/
def collWidth (type : Nat) : Nat := if type = 1 || type = 2 then 2 else 4

/-- Bytes of the send and of the receive buffer for `ranks` ranks. -/
def Coll.sizes (c : Coll) (ranks : Nat) : Nat × Nat :=
  let n := c.count * collWidth c.type
  match c.op with
  | 0 => (n, n)
  | 1 => (n, ranks * n)
  | _ => (ranks * n, n)

/-! ## COLL and SYS.cabort -/

/-- The lowest free slot of a sett's engine. -/
def Sett.freeSlot (t : Sett) : Nat := ((List.range 256).find? (fun i => (Tab.get none t.colls i).isNone)).getD 0

/-- Packets that wait for the collective of a group's attempt and place. -/
def GroupEntry.waiting (x : GroupEntry) (a seq : Nat) : List (Nat × Nat) :=
  (x.held.filter (fun h => h.1 = a && h.2.1 = seq)).map (fun h => (h.2.2.1, h.2.2.2))

/-- A collective enters a slot of the engine; its own contribution follows when the request has left the strike window. -/
def State.enterColl (s : State) (sett slot : Nat) (c : Coll) : State :=
  let x := s.group sett c.group
  let s := s.modSett sett (fun t => { t with
    colls := Tab.set none t.colls slot (some { c with got := x.waiting c.attempt c.seq })
    groups := Tab.modify GroupEntry.init t.groups c.group (fun y => { y with
      issued := y.issued + 1, held := y.held.filter (fun h => !(h.1 = c.attempt && h.2.1 = c.seq)) }) })
  s.schedule 331 35 (.collPacketReceive sett c.group c.attempt c.seq x.me 0)

/-- COLL (R174): the descriptor of the lowest active lane; the handle in every active lane. -/
def execColl (px : Option Pfx) (d : BitVec 7) (a : BitVec 7) (g : BitVec 4) (s : State) : Out :=
  let x : Instr := .coll px d a g
  s.issueMem x (fun _ => none) (fun u =>
    let c := s.crew u.crew
    let act := c.active x u.lanes
    let sett := crewSett u.crew
    if act = [] then .next (s.idleLoad x u)
    else match s.readDescs u ((act.take 1).map (fun l => (l, c.laneAddr x l))) [] (s.badColl sett) with
    | .stop t => .next t
    | .ok ds lat s =>
      let (l, v) := ds.headD (0, 0)
      let slot := (s.sett sett).freeSlot
      let e := s.group sett (lGroup v)
      let handle := e.attempt * 65536 + slot
      let k := (((s.crew u.crew).countReads (info x).readRegs act).bump false).releaseForms ((info x).writeRegs.map c.win)
      let k := act.foldl (fun (k : Crew) j => k.writeReg (k.win d.toNat) j (BitVec.ofNat 32 handle) (info x).cnt)
        (k.writeResults (info x) (c.zeros x u))
      let s := s.finish u x { k with copies := k.copies + 1, nextAt := s.cycle + lat, colls := k.colls ++ [handle] }
      let (grp, s) := s.fresh
      let s := { s with groups := Tab.set none s.groups grp (some { crew := u.crew, left := 1 }) }
      let stamp := s.stampOf u.crew sett
      .next (s.enterColl sett slot
        { crew := u.crew, group := lGroup v, attempt := e.attempt, op := lOp v, type := lType v, red := lRed v, send := lSend v,
          recv := lRecv v, count := lCount v, doneCtr := lDone v, copyGroup := grp, got := [], seq := e.issued, pc := u.pc,
          lane := l, stamp := { stamp with lane := l }, frontier := c.frontier }))

/-- The group and attempt of a handle that names a running collective of the current attempt (R184). -/
def State.currentColl (s : State) (sett handle : Nat) : Option (Nat × Nat) :=
  match Tab.get none (s.sett sett).colls (handle % 65536) with
  | none => none
  | some c =>
    if c.attempt = handle / 65536 && !c.aborted && (s.group sett c.group).attempt = c.attempt then some (c.group, c.attempt) else none

/-- SYS.cabort (R184, R381). -/
def execSysCabort (px : Option Pfx) (a : BitVec 7) (g : BitVec 4) (s : State) : Out :=
  let x : Instr := .sysCabort px a g
  s.issue x (fun u =>
    let c := s.crew u.crew
    let act := c.active x u.lanes
    let t := s.finish u x (c.countReads (info x).readRegs act)
    let sett := crewSett u.crew
    match act with
    | [] => .next t
    | l :: _ =>
      match s.currentColl sett (c.slot (c.win a.toNat) l).val.toNat with
      | none => .next t
      | some (grp, at_) => .next ((t.abortAttempt sett grp at_).sendTokens sett grp at_))

/-! ## The engine's accesses -/

/-- Target of an access of the collective engine; a replicated page and what is neither device nor host memory are absent
targets. -/
def State.collTarget (s : State) (sett va n : Nat) (acc : Access) (shadow : Bool) : Xlate :=
  if 2 ^ 56 ≤ va then .fault 5 0
  else match s.walk sett va with
    | .leaf l =>
      (match s.applyLeaf sett va n acc l shadow with
        | .ok t =>
          if t.rep && acc != .read then .fault 8 t.level
          else (match s.placeKind sett t with | some kind => .fault kind t.level | none => .ok t)
        | .space => .fault 8 0
        | x => x)
    | .fault kind level => .fault kind level

/-- A range cut at 4 KiB boundaries: (address, bytes, bytes before it). -/
def pageParts (va n : Nat) : List (Nat × Nat × Nat) :=
  (List.range ((va + n + 4095) / 4096 - va / 4096)).map (fun j =>
    let lo := max va (4096 * (va / 4096 + j))
    let hi := min (va + n) (4096 * (va / 4096 + j + 1))
    (lo, hi - lo, lo - va))

/-- Record a fault that a collective meets and try the step again later (log 26). -/
def State.collFault (s : State) (sett : Nat) (c : Coll) (va kind level : Nat) (acc : Access) (ev : Event) : State :=
  let f : FaultEntry :=
    { va := va, pc := c.pc.toNat, lanes := 2 ^ c.lane, gangRec := crewRec c.crew, block := blockId (crewBlock c.crew),
      crew := c.crew % 32, core := (s.crew c.crew).core, kind := kind, access := acc.code, level := level, agent := 1,
      rp := replayable kind }
  let known := (s.sett sett).faults.any (fun p => p.2.res != 3 && p.2.va = va && p.2.kind = kind)
  let s := if known then s else s.faultArrives sett f
  s.schedule 256 35 ev

/-- A whole buffer of the engine: its targets, or the first fault. -/
inductive Buffer where
  | ok (parts : List (Nat × Nat × Target))
  | fault (va kind level : Nat)

def State.collBuffer (s : State) (sett va n : Nat) (acc : Access) (shadow : Bool) : Buffer :=
  let ts := (pageParts va n).map (fun p => (p, s.collTarget sett p.1 p.2.1 acc shadow))
  match ts.find? (fun t => match t.2 with | .ok _ => false | _ => true) with
  | some (p, .fault kind level) => .fault p.1 kind level
  | _ => .ok (ts.filterMap (fun t => match t.2 with | .ok x => some (t.1.2.1, t.1.2.2, x) | _ => none))

/-- Every home of a buffer's parts can be read. -/
def State.partsReady (s : State) (parts : List (Nat × Nat × Target)) : Bool × State :=
  parts.foldl (fun (acc : Bool × State) p => match p.2.2.place with
    | .hbm q a => let (ok, t) := acc.2.homeReady q a p.1
                  (acc.1 && ok, t)
    | _ => acc) (true, s)

/-- Bytes of a buffer, with the poison mark above them where a sector is poisoned (R422). -/
def State.readParts (s : State) (parts : List (Nat × Nat × Target)) (n : Nat) : Nat × State :=
  let (v, bad, s) := parts.foldl (fun (acc : Nat × Bool × State) p =>
    let (v, bad, s) := acc
    match p.2.2.place with
    | .remote _ _ =>
      let (d, s) := s.draw
      (v + ((List.range p.1).foldr (fun b w => (Config.remote d b).toNat % 256 + 256 * w) 0) * 256 ^ p.2.1, bad, s)
    | .hbm q a =>
      let (w, s) := s.memRead p.2.2 p.1
      (v + w * 256 ^ p.2.1, bad || s.poisoned q a p.1, s)
    | _ =>
      let (w, s) := s.memRead p.2.2 p.1
      (v + w * 256 ^ p.2.1, bad, s)) (0, false, s)
  (if bad then v + 256 ^ n else v, s)

/-! ## Packets (R380) -/

/-- Ranks of a group other than the own one that lie in this module: (rank, sett), and those beyond a link. -/
def State.otherRanks (s : State) (sett g : Nat) : List (Nat × Nat) :=
  let x := s.group sett g
  ((List.range (x.n + 1)).filter (fun j => j != x.me)).map (fun j => (j, s.hbmRead sett (x.ranks + 8 * j) 8))

/-- What two ranks' descriptors have to agree in. -/
def Coll.shape (c : Coll) : Nat := c.op + 2 ^ 4 * c.type + 2 ^ 8 * c.red + 2 ^ 12 * c.count

/-- A contribution as a packet carries it: the shape of its collective, and its bytes above. -/
def Coll.packet (c : Coll) (v : Nat) : Nat := c.shape + 2 ^ 64 * v

/-- A contribution joins its collective; the last one lets it complete. -/
def State.contribute (s : State) (sett slot : Nat) (c : Coll) (rank data : Nat) : State :=
  if c.got.any (fun p => p.1 = rank) then s
  else
    let c := { c with got := c.got ++ [(rank, data)] }
    let s := s.modSett sett (fun t => { t with colls := Tab.set none t.colls slot (some c) })
    if c.got.length = (s.group sett c.group).n + 1 then s.schedule 1 35 (.collectiveComplete sett slot) else s

/-- The slot of a collective by its place among those of its group and attempt. -/
def State.collSlot (s : State) (sett g a seq : Nat) : Option (Nat × Coll) :=
  (s.sett sett).colls.findSome? (fun p => match p.2 with
    | some c => if c.group = g && c.attempt = a && c.seq = seq && !c.aborted then some (p.1, c) else none
    | none => none)

/-- COLL_PACKET_RECEIVE (R380): the comparison of attempts; the own rank's packet is the engine's reading of its send buffer,
which it sends to the other ranks. A packet whose collective has not started here waits in the receive credit. -/
def execCollPacketReceive (sett : Nat) (group : Nat) (attempt : Nat) (seq : Nat) (rank : Nat) (data : Nat) (s : State) : Out :=
  let x := s.group sett group
  if staleAttempt x.attempt attempt then .next s
  else
    match (if x.attempt = attempt then s.collSlot sett group attempt seq else none) with
    | none =>
      if rank = x.me then .next s
      else .next (s.modSett sett (fun t => { t with groups := Tab.modify GroupEntry.init t.groups group (fun y =>
        { y with held := y.held ++ [(attempt, seq, rank, data)] }) }))
    | some (slot, c) =>
      if rank != x.me then .next (s.contribute sett slot c rank data)
      else
        let n := (c.sizes (x.n + 1)).1
        let ev : Event := .collPacketReceive sett group attempt seq rank data
        match s.collBuffer sett c.send n .read false with
        | .fault va kind level => .next (s.collFault sett c va kind level .read ev)
        | .ok parts =>
          let (ok, s) := s.partsReady parts
          if !ok then .next (s.schedule 1 35 ev)
          else
            let (v, s) := s.readParts parts n
            let v := c.packet v
            let s := forEach (s.otherRanks sett group) s (fun p t =>
              if p.2 / 2 ^ 52 = 0 then t.schedule 60 35 (.collPacketReceive (p.2 / 2 ^ 49 % 8) group attempt seq x.me v)
              else t.sendPacket (p.2 / 2 ^ 49) group attempt seq x.me (65 + 8 * n) v)
            .next (s.contribute sett slot c rank v)

/-- ABORT_TOKEN_RECEIVE (R381). -/
def execAbortTokenReceive (sett : Nat) (group : Nat) (attempt : Nat) (s : State) : Out :=
  .next (if staleAttempt (s.group sett group).attempt attempt then s else s.abortAttempt sett group attempt)

/-! ## Reductions -/

/-- A narrow floating-point element as FP32. -/
def widen (F : Fmt) (v : Nat) : Word := BitVec.ofNat 32 (Fmt.fp32.round 0 (F.decode false v))

/-- Two elements combined: sum, max or min of a type; sums round to the element type (log 25). DESIGN CHOICE (log 110): a
floating maximum or minimum is the maximumNumber or minimumNumber of R83, which R174 does not say. -/
def collCombine (type red a b : Nat) : Nat :=
  let float (F : Fmt) : Nat :=
    if red = 0 then F.round 0 (FVal.sum 0 [F.decode false a, F.decode false b])
    else F.round 0 (Fmt.fp32.decode false (fminmax (red = 1) (widen F a) (widen F b)).toNat)
  match type, red with
  | 0, 0 => fadd32 0 a b
  | 0, _ => (fminmax (red = 1) (BitVec.ofNat 32 a) (BitVec.ofNat 32 b)).toNat
  | 1, _ => float .bf16
  | 2, _ => float .fp16
  | 3, 1 => if sext 32 a ≤ sext 32 b then b else a
  | 3, 2 => if sext 32 a ≤ sext 32 b then a else b
  | _, 0 => (a + b) % 2 ^ 32
  | _, 1 => max a b
  | _, _ => min a b

/-- Combine a list of values in a free order: any two values are taken and replaced by their combination. -/
def combineAll (f : Nat → Nat → Nat) (choose : Nat → Nat) : Nat → List Nat → Nat
  | 0, l => l.headD 0
  | n + 1, l =>
    if l.length ≤ 1 then l.headD 0
    else
      let i := choose (2 * n) % l.length
      let a := l.getD i 0
      let l := l.eraseIdx i
      let j := choose (2 * n + 1) % l.length
      combineAll f choose n (f a (l.getD j 0) :: l.eraseIdx j)

/-- Element e of a contribution. -/
def collElem (w v e : Nat) : Nat := v / 256 ^ (w * e) % 256 ^ w

/-- The ranks have paired collectives of different shapes: a program issued them in unequal order, and the results are unpredictable
within the receive buffer (R16, R379). -/
def Coll.unequal (c : Coll) : Bool := c.got.any (fun p => p.2 % 2 ^ 64 != c.shape)

/-- What a completed collective puts into the receive buffer of rank `me`; `d` is a draw. -/
def Coll.result (c : Coll) (ranks me n d : Nat) : Nat :=
  let w := collWidth c.type
  let part (j : Nat) : Nat := ((c.got.find? (fun p => p.1 = j)).map (fun p => p.2 / 2 ^ 64)).getD 0
  let one (e : Nat) : Nat :=
    combineAll (collCombine c.type c.red) (fun k => Config.collOrder d e k) ranks ((List.range ranks).map (fun j => collElem w (part j) e))
  if c.unequal then (List.range n).foldr (fun b v => (Config.aborted d b).toNat + 256 * v) 0
  else match c.op with
  | 0 => (List.range c.count).foldr (fun e v => one e + 256 ^ w * v) 0
  | 1 => (List.range ranks).foldr (fun j v => part j % 256 ^ (w * c.count) + 256 ^ (w * c.count) * v) 0
  | _ => (List.range c.count).foldr (fun e v => one (me * c.count + e) + 256 ^ w * v) 0

/-- Some contribution carried poison. -/
def Coll.poisoned (c : Coll) (n : Nat) : Bool := c.got.any (fun p => decide (256 ^ n ≤ p.2 / 2 ^ 64))

/-! ## Completion (R381) -/

/-- The homes of a buffer's parts let it be written: owners are recalled, sharers invalidated. -/
def State.partsWritable (s : State) (parts : List (Nat × Nat × Target)) : Bool × State :=
  parts.foldl (fun (acc : Bool × State) p => match p.2.2.place with
    | .hbm q a =>
      if p.2.2.rep then
        match (acc.2.sett q).inArea a p.1 with
        | some n =>
          let t := acc.2.settleSequencer q n
          (acc.1 && t.sequencerReady (t.area q n).seqr n, t)
        | none => acc
      else
        let (ok, t) := acc.2.dirWrite q a p.1 none
        (acc.1 && ok, t)
    | _ => acc) (true, s)

/-- Write a buffer of the engine, stamped as its instruction (R284); a refusal of R291 is told once (R292). -/
def State.writeParts (s : State) (c : Coll) (parts : List (Nat × Nat × Target)) (v : Nat) (bad : Bool) : State :=
  (parts.foldl (fun (acc : Bool × State) p =>
    let (told, s) := acc
    let (n, before, t) := p
    let x := v / 256 ^ before % 256 ^ n
    match t.place with
    | .hbm q a =>
      if t.rep then (told, s.replicate q a n t.key x (some (s.launchOf c.crew)))
      else
      let w : HomeWrite :=
        { sett := q, addr := a, n := n, value := x, key := t.key, ks := t.ks,
          stamp := { c.stamp with src := if q = crewSett c.crew then 0 else 1 }, frontier := c.frontier.pairs,
          launch := some (s.launchOf c.crew) }
      let (cells, s) := s.homeWrite w
      let s := s.refuse q c.crew c.pc 0 cells w.stamp (!told) false true
      let s := if bad then s.markPoison q a n true else s
      (told || cells != [], s.llcTouch q a 0 t.cache)
    | .remote w o => (told, s.writeRemote (crewSett c.crew) (s.crew c.crew).core w o n x)
    | _ => (told, s.memWrite t n x none)) (c.told, s)).2

/-- Free a slot. -/
def State.freeColl (s : State) (sett slot : Nat) : State :=
  s.modSett sett (fun t => { t with colls := Tab.set none t.colls slot none })

/-- 1 is added to done (R281); false where its home has to wait. -/
def State.raiseDone (s : State) (c : Coll) (t : Target) : Bool × State :=
  match t.place with
  | .hbm q a => s.homeAdd q a 1 t.key
  | .remote w o => (true, s.toWindow (crewSett c.crew) w o 2 8 0 1)
  | _ => (true, s.memWrite t 8 (((s.memRead t 8).1 + 1) % 2 ^ 64) none)

/-- COLLECTIVE_COMPLETE (R174, R281, R381): the receive buffer is written into its shadow frame (R268), 1 is added to done, and
the issuer's copies counter falls. An aborted collective leaves free bytes in the buffer and frees its slot (log 12). -/
def execCollectiveComplete (sett : Nat) (slot : Nat) (s : State) : Out :=
  match Tab.get none (s.sett sett).colls slot with
  | none => .next s
  | some c =>
    let x := s.group sett c.group
    let ranks := x.n + 1
    let (sent, n) := c.sizes ranks
    let ev : Event := .collectiveComplete sett slot
    match s.collBuffer sett c.recv n .write true with
    | .fault va kind level =>
      if c.aborted then .next (s.freeColl sett slot) else .next (s.collFault sett c va kind level .write ev)
    | .ok parts =>
      let (ok, s) := s.partsWritable parts
      if !ok then .next (s.schedule 1 35 ev)
      else
        let (d, s) := s.draw
        if c.aborted then
          let v := (List.range n).foldr (fun b v => (Config.aborted d b).toNat + 256 * v) 0
          .next ((s.writeParts c parts v false).freeColl sett slot)
        else
          let finish (s : State) : State :=
            let s := s.redo (s.crew c.crew).core (.ended c.crew c.copyGroup (c.attempt * 65536 + slot))
            let s := (s.freeColl sett slot).groupDone c.copyGroup
            let s := s.modCrew c.crew (fun k => { k with colls := k.colls.filter (fun h => h != c.attempt * 65536 + slot) })
            s.checkEnd c.crew
          if c.doneCtr = 0 then
            .next (finish (s.writeParts c parts (c.result ranks x.me n d) (c.poisoned sent)))
          else match s.collTarget sett c.doneCtr 8 .write false with
            | .ok t =>
              let (ok, s) := s.partsWritable [(8, 0, t)]
              if !ok then .next (s.schedule 1 35 ev)
              else .next (finish ((s.writeParts c parts (c.result ranks x.me n d) (c.poisoned sent)).raiseDone c t).2)
            | .fault kind level => .next (s.collFault sett c c.doneCtr kind level .write ev)
            | _ => .next s

end Sys2Proof.Machine
end

