-- ==== Sys2Proof/Machine/ArrayMath.lean ====
section
/-! DEFINITION. Array arithmetic (spec/07, R186 to R211): the reference conversion, its silicon deviation, rescaling, column
sums, scaling and accumulation, and the gate. -/

namespace Sys2Proof.Machine

/-- Settings of a product (R193, R223). -/
structure Prod where
  w : Nat
  n : Nat
  G : Nat
  /-- K' -/
  rows : Nat
  gate : Nat
  theta : Nat
  qs : Int
deriving DecidableEq, Repr

def stepsOf (code : Nat) : Nat := 4 + 2 * code
def repeatsOf (code : Nat) : Nat := 2 ^ code
def groupOf (code : Nat) : Nat := 8 * 2 ^ code

/-! ## Conversion (R188 to R192, R197, R198) -/

/-- The sum of the codes of the n repeats for a charge-shared sum S (R189). -/
def codeSum (p : Prod) (S : Int) : Nat :=
  let base := (S + 128 * p.G).toNat * 2 ^ p.w * p.n
  let den := 256 * p.G * p.n
  (List.range p.n).foldl (fun t k => t + min (2 ^ p.w - 1) ((base + 256 * p.G * k) / den)) 0

/-- Shat in sixteenths of a code sum (R189). -/
def shat16 (p : Prod) (codes : Nat) : Int :=
  (16 * 256 * p.G * codes / (p.n * 2 ^ p.w) : Nat) - (16 * 128 * p.G : Nat)

/-- q(S): the reference Shat of a sum, in sixteenths (R191). -/
def refShat (p : Prod) (S : Int) : Int := shat16 p (codeSum p S)

/-- Whole square root of numbers below 2^20. -/
def rootBelow (x : Nat) : Nat := ((List.range 1024).filter (fun y => decide (y * y ≤ x))).length - 1

/-- B of R198, in reference steps. -/
def noiseBound (p : Prod) : Nat :=
  (p.n + rootBelow (96 ^ 2 * 256 * p.n * 2 ^ (2 * p.w) / (p.G * 2 ^ 24))) / 16 + 1

/-- The silicon's Shat: the reference moved by a free deviation within the bound, inside the converter's range (log 7). -/
def silicon (p : Prod) (S dev : Int) : Int :=
  let b : Int := noiseBound p
  let top : Int := p.n * (2 ^ p.w - 1)
  shat16 p (sat (codeSum p S + sat dev (-b) b) 0 top).toNat

/-- Bit j of a two's-complement byte. -/
def planeBit (q : Int) (j : Nat) : Bool := (wrap 8 q).testBit j

/-- The charge-shared sum of a plane (R188): inputs and weights row by row. -/
def chargeSum (j : Nat) (xs ws : List Int) : Int :=
  (xs.zip ws).foldl (fun s p => if planeBit p.1 j then s + p.2 else s) 0

/-- Weight of plane j in P (R192). -/
def planeWeight (j : Nat) : Int := if j = 7 then -128 else 2 ^ j

/-! ## Rescaling (R201, R202) -/

/-- The nearest integer to q divided by 2^k, ties to even. -/
def rneShift (q : Int) (k : Nat) : Int := roundInteger 0 (q < 0) q.natAbs (-(k : Int))

/-- Blocks of 32 values under their scales, brought to the largest scale; 0xFF counts as largest and leaves the values. -/
def rescale (qs : List Int) (scales : List Nat) : List Int × Nat :=
  let m := scales.foldl max 0
  if m = 255 then (qs, 255)
  else (qs.zipIdx.map (fun q => rneShift q.1 (m - (scales[q.2 / 32]?).getD m)), m)

/-- A row group of the input vector for one slot of a chain: place in the chain, first row, input scale, inputs. -/
structure Grp where
  slot : Nat
  row : Nat
  scale : Nat
  xs : List Int
deriving DecidableEq, Repr

/-- The groups of slot i of a chain (R187, R200, R202); `elems` and `scales` are the vector's bytes. -/
def slotGroups (p : Prod) (elems scales : List Nat) (i : Nat) : List Grp :=
  (List.range ((p.rows + p.G - 1) / p.G)).map (fun g =>
    let r0 := p.G * g
    let n := min p.G (p.rows - r0)
    let q := (elems.drop (i * p.rows + r0)).take n
    let xs := q.map (fun b => sext 8 b)
    let b0 := (i * p.rows + r0) / 32
    if p.G ≤ 32 then { slot := i, row := r0, scale := (scales[b0]?).getD 255, xs := xs }
    else
      let (ys, m) := rescale xs ((scales.drop b0).take ((n + 31) / 32))
      { slot := i, row := r0, scale := m, xs := ys })

/-! ## Tile slots -/

/-- The weight of row r and column c (R186, R212). -/
def Tile.weight (t : Tile) (r c : Nat) : Int := sext 8 (Memory.read t.weights (64 * r + c)).toNat

def Tile.scale (t : Tile) (c b : Nat) : Nat := Tab.get scaleDefault t.scales (8 * c + b)

/-- H in rows (R221). -/
def Tile.spanRows (t : Tile) : Nat := 32 * 2 ^ t.span

/-- Weights of a group of rows in a column. -/
def Tile.columnOf (t : Tile) (row n c : Nat) : List Int := (List.range n).map (fun r => t.weight (row + r) c)

/-- The column sums of the pass of R220, for every column and aligned 8-row unit. -/
def Tile.withSums (t : Tile) : Tile :=
  let (wp, wn) := t.weights.foldl (fun (acc : Tab Nat × Tab Nat) e =>
    let v := sext 8 e.2.toNat
    let k := 32 * (e.1 % 64) + e.1 / 64 / 8
    if 0 < v then (Tab.modify 0 acc.1 k (· + v.toNat), acc.2) else (acc.1, Tab.modify 0 acc.2 k (· + v.natAbs))) ([], [])
  { t with wpos := wp, wneg := wn, sums := true }

/-- Wpos and Wneg of a group: the sums over its units (R205). -/
def Tile.groupSums (t : Tile) (row G c : Nat) : Int × Int :=
  let us := (List.range (G / 8)).map (row / 8 + ·)
  (us.foldl (fun s u => s + (Tab.get 0 t.wpos (32 * c + u) : Nat)) (0 : Int),
   us.foldl (fun s u => s - (Tab.get 0 t.wneg (32 * c + u) : Nat)) (0 : Int))

/-- MLOAD of one slot (R222): the scale store, and the rescaling of R201 where the span is larger than 32 rows. -/
def Tile.load (t : Tile) (bytes : List Nat) (span : Nat) : Tile :=
  let t := { t with
    scales := bytes.zipIdx.foldl (fun s b => Tab.set scaleDefault s b.2 b.1) t.scales
    nan := [], span := span }
  if span = 0 then t
  else
    let H := 32 * 2 ^ span
    (List.range 64).foldl (fun t c => (List.range (256 / H)).foldl (fun t k =>
      let bs := (List.range (H / 32)).map (k * (H / 32) + ·)
      let (qs, m) := rescale (t.columnOf (k * H) H c) (bs.map (t.scale c))
      let t := { t with scales := bs.foldl (fun s b => Tab.set scaleDefault s (8 * c + b) m) t.scales }
      if m = 255 then { t with nan := Tab.set false t.nan (8 * c + k * (H / 32)) true }
      else { t with weights := qs.zipIdx.foldl (fun w q =>
        Memory.write w (64 * (k * H + q.2) + c) (BitVec.ofNat 8 (wrap 8 q.1))) t.weights }) t) t

/-- A group's term is NaN in a column (R203). -/
def Tile.groupNan (t : Tile) (g : Grp) (c : Nat) : Bool :=
  g.scale = 255 || t.scale c (g.row / 32) = 255 || Tab.get false t.nan (8 * c + g.row / t.spanRows * (t.spanRows / 32))

/-! ## Scaling and accumulation (R203, R204) -/

/-- The term of a group: P in sixteenths under both scales, none for NaN. -/
def groupTerm (t : Tile) (g : Grp) (c : Nat) (p16 : Int) : Nat :=
  if t.groupNan g c then 0x7FC00000
  else Fmt.fp32.round 0 (.fin (p16 < 0) p16.natAbs (g.scale + t.scale c (g.row / 32) - 266 - 4))

/-- The chain accumulation from a start value. -/
def accumulate (start : Nat) (terms : List Nat) : Nat := terms.foldl (fun a t => fadd a t) start
where fadd (a t : Nat) : Nat := Fmt.fp32.round 0 (FVal.add 0 (Fmt.fp32.decode false a) (Fmt.fp32.decode false t))

/-! ## The gate (R206, R228) -/

/-- The exact path's function of the accumulated value. -/
def gateExact (p : Prod) (v : Nat) : Nat :=
  let x := Fmt.fp32.decode false v
  match p.gate with
  | 0 => v
  | 1 => (fminmax true (BitVec.ofNat 32 v) (BitVec.ofNat 32 p.theta)).toNat
  | 2 => if (FVal.fin false 0 0).lt x then 1 else 0
  | _ => wrap 32 (roundInt 2 (-(2 ^ 31)) (2 ^ 31 - 1) (x.scale (some (-p.qs))))

/-- A value is finite. -/
def FVal.finite : FVal → Bool
  | .fin .. => true
  | _ => false

/-- The decision of R206 on the interval: the result of a skip, or none for the exact path. -/
def gateSkip (p : Prod) (lo hi : Nat) : Option Nat :=
  let a := Fmt.fp32.decode false lo
  let b := Fmt.fp32.decode false hi
  let zero := FVal.fin false 0 0
  if !a.finite || !b.finite then none
  else
    match p.gate with
    | 0 => none
    | 1 => if b.lt (Fmt.fp32.decode false p.theta) then some p.theta else none
    | 2 => if zero.lt a then some 1 else if b.lt zero then some 0 else none
    | _ =>
      match a.scale (some (-p.qs)) with
      | .fin neg m e =>
        let k := roundInteger 2 neg m e
        if ((FVal.ofInt k).scale (some p.qs)).lt a && b.lt ((FVal.ofInt (k + 1)).scale (some p.qs)) then
          some (wrap 32 (sat k (-(2 ^ 31)) (2 ^ 31 - 1)))
        else none
      | _ => none

end Sys2Proof.Machine
end

