-- ==== Sys2Proof/Machine/Sequencer.lean ====
section
/-! DEFINITION. The array sequencer (spec/08, R212 to R235): MLOAD, AMODE, MMV, MMG and ACC, their queue, their steps, their
commits and their ends. -/

namespace Sys2Proof.Machine

/-! ## Fields of the parameter blocks (R219, R221, R223, R234) -/

def lScales (p : Nat) : Nat := bits p 127 64
def lCnt (p : Nat) : Nat := bits p 30 24 + 1
def lFirst (p : Nat) : Nat := bits p 22 16
def lSpan (p : Nat) : Nat := bits p 5 4

def mRspan (p : Nat) : Nat := bits p 539 528 + 1
def mEntries (p : Nat) : Nat := bits p 523 512 + 1
def mScat (p : Nat) : Nat := bits p 511 448
def mIdx (p : Nat) : Nat := bits p 447 384
def mSstride (p : Nat) : Nat := bits p 351 320
def mIsc (p : Nat) : Nat := bits p 319 256
def mIstride (p : Nat) : Nat := bits p 223 192
def mIn (p : Nat) : Nat := bits p 191 128
def mVecs (p : Nat) : Nat := bits p 123 112 + 1
def mArow (p : Nat) : Nat := bits p 107 96
def mTheta (p : Nat) : Nat := bits p 95 64
def mFirst (p : Nat) : Nat := bits p 54 48
def mMask (p : Nat) : Nat := bits p 43 40
def mQs (p : Nat) : Nat := bits p 39 32
def mChains (p : Nat) : Nat := bits p 31 28 + 1
def mLen (p : Nat) : Nat := bits p 27 24 + 1
def mRows (p : Nat) : Nat := bits p 23 16 + 1
def mAcc (p : Nat) : Bool := p.testBit 14
def mGate (p : Nat) : Nat := bits p 13 12
def mG (p : Nat) : Nat := bits p 11 9
def mN (p : Nat) : Nat := bits p 8 6
def mW (p : Nat) : Nat := bits p 5 4

def aStride (p : Nat) : Int := sext 64 (bits p 191 128)
def aMem (p : Nat) : Nat := bits p 127 64
def aRows (p : Nat) : Nat := bits p 43 32 + 1
def aRow (p : Nat) : Nat := bits p 27 16
def aRnd (p : Nat) : Nat := bits p 14 12
def aFmt (p : Nat) : Nat := bits p 11 8
def aOp (p : Nat) : Nat := bits p 7 4

/-- Bytes of a memory row of an ACC. -/
def aBytes (p : Nat) : Nat := if aOp p = 2 then (match aFmt p with | 0 => 256 | 1 | 2 => 128 | _ => 64) else 256

def oPhase (a : Nat) : Nat := bits a 31 24
def oBar (a : Nat) : Nat := bits a 23 16
def oCnt (a : Nat) : Nat := bits a 14 8 + 1
def oFirst (a : Nat) : Nat := bits a 6 0

/-- Settings of an MMV or MMG. -/
def mProd (p : Nat) : Prod :=
  { w := stepsOf (mW p), n := repeatsOf (mN p), G := groupOf (mG p), rows := mRows p, gate := mGate p, theta := mTheta p,
    qs := sext 8 (mQs p) }

/-! ## Entries -/

def State.seqOp (s : State) (g id : Nat) : Option SeqOp := (s.core g).seq.find? (fun o => o.id = id)

def State.modOp (s : State) (g id : Nat) (f : SeqOp → SeqOp) : State :=
  s.modCore g (fun c => { c with seq := c.seq.map (fun o => if o.id = id then f o else o) })

/-- Tile slots that an entry names: first and number; none where its block has not been read (R215). -/
def SeqOp.slots (o : SeqOp) : Option (Nat × Nat) :=
  match o.form, o.params with
  | 5, _ => some (oFirst o.addr, oCnt o.addr)
  | _, none => none
  | 1, some p => some (lFirst p, lCnt p)
  | 4, some _ => some (0, 0)
  | _, some p => some (mFirst p, mChains p * mLen p)

/-- Accumulator rows that it declares (R225, R234). -/
def SeqOp.rows (o : SeqOp) : Option (Nat × Nat) :=
  match o.form, o.params with
  | 5, _ => some (0, 0)
  | _, none => none
  | 1, some _ => some (0, 0)
  | 2, some p => some (mArow p, mVecs p * mChains p)
  | 3, some p => some (mArow p, mRspan p)
  | _, some p => some (aRow p, aRows p)

def overlap (a b : Option (Nat × Nat)) : Bool :=
  match a, b with
  | some (x, n), some (y, m) => n != 0 && m != 0 && decide (x < y + m) && decide (y < x + n)
  | _, _ => true

/-- An older entry keeps a later one from starting (R215). -/
def SeqOp.blocks (old new : SeqOp) : Bool :=
  old.state != .retired && (overlap old.slots new.slots || overlap old.rows new.rows)

/-- Vectors of an MMV, list entries of an MMG. -/
def SeqOp.count (o : SeqOp) : Nat :=
  match o.params with
  | some p => if o.form = 3 then mEntries p else mVecs p
  | none => 0

/-- The vector that entry e takes; none where the entry is skipped (R229). -/
def SeqOp.vector (o : SeqOp) (e : Nat) : Option Nat :=
  if o.form = 3 then (match o.gather[e]? with
    | some v => if v = 0xFFFF then none else some v
    | none => none)
  else some e

/-- Accumulator row of chain p of entry e. -/
def SeqOp.row (o : SeqOp) (e p : Nat) : Nat :=
  match o.params with
  | some x => if o.form = 3 then mArow x + o.scatter.getD e 0 + p else mArow x + e * mChains x + p
  | none => 0

/-- Cluster cores that an operation aims at (R226). -/
def SeqOp.aims (o : SeqOp) : List Nat :=
  match o.params with
  | some p => if (o.form = 2 || o.form = 3) && mMask p != 0 then (List.range 4).filter (fun k => (mMask p).testBit k) else [o.home % 4]
  | none => [o.home % 4]

/-! ## Reads of the sequencer (R217) -/

/-- What a read gives; a miss and a fault name the address. -/
inductive SeqRead where
  | ok (v : Nat) (poison : Bool)
  | retry
  | miss (va : Nat)
  /-- the address is of a class that the field does not allow -/
  | bad
  | fault (va kind level : Nat)

/-- Bytes that overlap an entry of a core's scoreboard other than the operation's own. -/
def State.scoredBut (s : State) (o : SeqOp) (va n : Nat) : Bool :=
  (s.core o.home).score.any (fun e => e.copy != o.id && s.meets o.home (crewRec o.crew) va n e)

/-- Bytes lie in scratchpads of the cluster. -/
def padBytesAt (va n : Nat) : Bool := addrCls va = .pad && addrCls (va + n - 1) = .pad

/-- Read n bytes within one page for an operation, as its issuing core sees the address; what it meets is noted for the issuer's
STATUS. -/
def State.seqPart (s : State) (o : SeqOp) (va n : Nat) : SeqRead × State :=
  if isNear va then
    let own := decide (nearCore o.home (va % 2 ^ 24) = o.home)
    if !padBytesAt va n then (.bad, s)
    else if own && s.scoredBut o va n then (.retry, s)
    else if !own && s.tooYoung o.crew o.home (va % 2 ^ 24) n then (.retry, s)
    else
      let (v, f) := s.nearRead o.crew o.home (va % 2 ^ 24) n
      (.ok v (s.nearPoison o.crew o.home (va % 2 ^ 24) n), s.modOp o.core o.id (fun x => { x with flags := x.flags.or f }))
  else
    match s.translate (crewSett o.crew) o.home va n .read with
    | .miss => (.miss va, s)
    | .space => (.bad, s)
    | .fault kind level => (.fault va kind level, s)
    | .ok t =>
      match t.place with
      | .hbm q a =>
        if q != crewSett o.crew || t.window.isSome || t.rep then (.bad, s)
        else match s.placeKind (crewSett o.crew) t with
          | some kind => (.fault va kind t.level, s)
          | none =>
            let (ok, s) := s.homeReady q a n
            if !ok then (.retry, s)
            else
              let bad := s.poisoned q a n
              let (v, s) := s.memRead t n
              (.ok v bad, s.llcTouch q a 0 t.cache)
      | _ => (.bad, s)

/-- Read n bytes, each page on its own. -/
def State.seqLoad (s : State) (o : SeqOp) (va n : Nat) : SeqRead × State :=
  let m := 4096 - va % 4096
  if isNear va || n ≤ m then s.seqPart o va n
  else match s.seqPart o va m with
    | (.ok v p, s) => (match s.seqPart o (wrap 64 (va + m : Nat)) (n - m) with
        | (.ok w q, s) => (.ok (v + 256 ^ m * w) (p || q), s)
        | x => x)
    | x => x

/-- Where an address of an operation outside the near window lies, whether or not the core's TLB holds its page. -/
def State.seqTarget (s : State) (o : SeqOp) (va n : Nat) : Xlate :=
  match s.translate (crewSett o.crew) o.home va n .read with
  | .miss => s.engineTarget (crewSett o.crew) va n .read
  | x => x

/-- Latency and rate of a stream of the sequencer (R230, R235). -/
def State.seqRoute (s : State) (o : SeqOp) (va : Nat) : Nat × Nat :=
  if isNear va then
    if o.aims != [o.home % 4] then (48, 32)
    else if nearCore o.home (va % 2 ^ 24) = o.home then (20, 128) else (48, 48)
  else match s.seqTarget o va 1 with
    | .ok t => (match t.place with | .hbm q a => (if s.llcHit q a then 406 else 676, 64) | _ => (406, 64))
    | _ => (406, 64)

/-- The step waits for a walk. -/
def State.seqMiss (s : State) (o : SeqOp) (va : Nat) (acc : Access) (ev : Event) : State :=
  (s.modOp o.core o.id (fun x => { x with parkedOn := some ev })).startWalk (crewSett o.crew) o.home va acc (.seq o.core o.id acc va)

/-- The step meets a fault: a replayable one waits for the fill, another fails the operation with reason 9 (R216). -/
def State.seqFault (s : State) (o : SeqOp) (va kind level : Nat) (acc : Access) (ev : Event) : State :=
  (s.modOp o.core o.id (fun x => { x with parkedOn := some ev })).faultWaiter (crewSett o.crew) (.seq o.core o.id acc va) va kind level

/-! ## The end of an entry -/

/-- A fault of an operation is known at the issuing core, whose trap follows at the end of the cycle; the lowest reason stands (R216). -/
def State.noteReason (s : State) (o : SeqOp) (why : Nat) (entry : Option Nat) : State :=
  (s.modOp o.home o.id (fun x => { x with
    reason := some (match x.reason with | some a => min a why | none => why)
    entry := if why = 9 then entry else x.entry })).schedule 0 39 (.seqOpRetire o.home o.id)

/-- An entry ends at its core, with a reason or without; `hit` says whether the target was reached. -/
def State.endOp (s : State) (o : SeqOp) (why : Option Nat) (hit : Bool) (delay : Nat) : State :=
  let k := 2 ^ (o.core % 4)
  let note (x : SeqOp) : SeqOp := { x with
    state := .retired, parkedOn := none, inputs := [], planes := [], starts := [], skips := [], sums := []
    reached := if hit then x.reached ||| k else x.reached
    missed := if hit then x.missed else x.missed ||| k }
  let s := ((s.modOp o.core o.id note).schedule delay 39 (.seqOpRetire o.core o.id)).schedule delay 38 (.seqStart o.core)
  match why with
  | some r => s.noteReason o r o.entry
  | none => s

/-- A failed step, by its reason. -/
def State.failOp (s : State) (o : SeqOp) (why : Nat) : State := s.endOp o (some why) true 0

/-- The tile-parameter trap of an operation whose fault has been found (R216); false while the trap list is full (R348). -/
def State.trapOp (s : State) (o : SeqOp) : Bool × State :=
  match o.reason with
  | some r =>
    if o.trapped then (true, s)
    else
      let (ok, s) := s.deferTrap o.crew .tileParam o.pc (o.lane + 256 * r) o.entry
      (ok, if ok then s.modOp o.home o.id (fun x => { x with trapped := true }) else s)
  | none => (true, s)

/-- What an operation that has retired everywhere leaves: STATUS bits, the trap of reason 5 where no target was reached (R226), the
counter. Answers false while the trap list is full (R348). -/
def State.finishOp (s : State) (o : SeqOp) : Bool × State :=
  let o := if o.reason.isNone && o.reached = 0 then { o with reason := some 5 } else o
  let (ok, s) := s.trapOp o
  if !ok then (false, s)
  else
    let s := s.modCrew o.crew (fun k =>
      let k := (if o.missed = 0 then k else { k with status := orBits k.status (o.missed * 2 ^ 8) }).noteFlags o.flags
      let k := if o.missed != 0 && o.reached != 0 then k.setStatus .mcpart else k
      { k with tiles := k.tiles - 1 })
    let s := s.modCore o.home (fun g => { g with
      seq := g.seq.filter (fun x => x.id != o.id), score := g.score.filter (fun e => e.copy != o.id) })
    (true, ((s.settleFences o.crew).schedule 0 38 (.seqStart o.home)).checkEnd o.crew)

/-- Memory writes of an ACC that have not been performed (R218). -/
def State.accWrites (s : State) (id : Nat) : Bool :=
  s.reqs.any (fun p => match p.2 with | some r => r.phase = 2 && r.group = id + 1 | none => false)

/-- SEQ_OP_RETIRE (R214, R216, R226): an entry of another target reports to the issuing core; there a fault that was found becomes a trap,
and the operation retires when the last target has ended. -/
def execSeqOpRetire (core : Nat) (op : Nat) (s : State) : Out :=
  match s.seqOp core op with
  | none => .next s
  | some o =>
    if core != o.home then
      if o.state != .retired then .next s
      else
        let s := s.modCore core (fun g => { g with seq := g.seq.filter (fun x => x.id != op) })
        let s := s.modOp o.home op (fun x => { x with
          targets := if x.targets.testBit (core % 4) then x.targets - 2 ^ (core % 4) else x.targets
          reached := x.reached ||| o.reached
          missed := x.missed ||| o.missed
          flags := x.flags.or o.flags })
        .next (s.schedule 0 39 (.seqOpRetire o.home op))
    else
      let (ok, s) := s.trapOp o
      if !ok then .next (s.schedule 1 39 (.seqOpRetire core op))
      else if o.state != .retired || o.targets != 0 then .next s
      else
        let (ok, t) := s.finishOp ((s.seqOp core op).getD o)
        .next (if ok then t else s.schedule 1 39 (.seqOpRetire core op))

/-! ## Issue (R214) -/

/-- Begin the next block read of a queue, one at a time and in order (R217). -/
def State.nextBlockRead (s : State) (g : Nat) : State :=
  match (s.core g).seq.find? (fun o => o.form != 5 && o.params.isNone && o.state = .queued && !o.stopped && o.home = g) with
  | none => s
  | some o => s.schedule (if isNear o.addr then 40 else (s.seqRoute o o.addr).1) 34 (.seqBlockRead g o.id)

/-- A matrix instruction enters the queue: the operand of the lowest active lane, and for ACC its stamp. -/
def matrixInstr (x : Instr) (form : Nat) (compute : Bool) (s : State) : Out :=
  s.issueMem x (fun _ => none) (fun u =>
    let c := s.crew u.crew
    let act := c.active x u.lanes
    match act with
    | [] => .next (s.finish u x c)
    | l :: _ =>
      let k := c.countReads (info x).readRegs act
      let k := if form = 4 then k.bump false else k
      let s := s.finish u x { k with tiles := k.tiles + 1 }
      let (id, s) := s.fresh
      let g := c.core
      let a := c.laneAddr x l
      let stamp := s.stampOf u.crew (crewSett u.crew)
      let o : SeqOp :=
        { id := id, crew := u.crew, lane := l, pc := u.pc, form := form, addr := a, compute := compute, home := g,
          block := crewBlock u.crew, core := g, issued := s.cycle, stamp := { stamp with lane := l }, frontier := c.frontier }
      let first := !(s.core g).seq.any (fun y => y.form != 5 && y.params.isNone && y.state = .queued && y.home = g)
      let s := s.modCore g (fun y => { y with seq := y.seq ++ [o] })
      if form = 5 then .next (s.schedule 1 38 (.seqStart g))
      else
        let s := s.modCore g (fun y => { y with score := y.score ++ [⟨id, a, a + 127, crewRec u.crew⟩] })
        let s := if form = 2 || form = 3 then
            forEach ((List.range 4).filter (· != g % 4)) s (fun k t => t.schedule 16 36 (.multicastEnqueue (4 * (g / 4) + k) id))
          else s
        .next (if first then s.nextBlockRead g else s))

/-- MLOAD (R221). -/
def execMload (px : Option Pfx) (a : BitVec 7) (g : BitVec 4) (s : State) : Out := matrixInstr (.mload px a g) 1 false s

/-- AMODE.storage (R219). -/
def execAmodeStorage (px : Option Pfx) (a : BitVec 7) (g : BitVec 4) (s : State) : Out :=
  matrixInstr (.amodeStorage px a g) 5 false s

/-- AMODE.compute (R219). -/
def execAmodeCompute (px : Option Pfx) (a : BitVec 7) (g : BitVec 4) (s : State) : Out :=
  matrixInstr (.amodeCompute px a g) 5 true s

/-- MMV (R223). -/
def execMmv (px : Option Pfx) (a : BitVec 7) (g : BitVec 4) (s : State) : Out := matrixInstr (.mmv px a g) 2 false s

/-- MMG (R223). -/
def execMmg (px : Option Pfx) (a : BitVec 7) (g : BitVec 4) (s : State) : Out := matrixInstr (.mmg px a g) 3 false s

/-- ACC (R234). -/
def execAcc (px : Option Pfx) (a : BitVec 7) (g : BitVec 4) (s : State) : Out := matrixInstr (.acc px a g) 4 false s

/-! ## The block read (R216, R217, R224) -/

/-- Every row of a near range lies in a scratchpad of the cluster; rows outside the near window are judged when they are translated
(R216, R234). -/
def nearRowsOk (base : Nat) (stride : Int) (rows n : Nat) : Bool :=
  (List.range rows).all (fun i => let va := rowAddr base stride i
                                  !isNear va || padBytesAt va n)

/-- Lowest reason that the block of a form gives on a block with T slots and Q rows. -/
def badBlock (form p T Q : Nat) : Option Nat :=
  let low (l : List (Bool × Nat)) : Option Nat := (l.find? (fun x => x.1)).map Prod.snd
  let zero (l : List (Nat × Nat)) : Bool := l.any (fun x => bits p x.1 x.2 != 0)
  match form with
  | 1 => low
    [(p % 16 != 1 || zero [(1023, 128), (63, 31), (23, 23), (15, 6)], 1),
     (decide (T < lFirst p + lCnt p), 2),
     (!nearRowsOk (lScales p) 512 (lCnt p) 512, 3)]
  | 4 => low
    [(p % 16 != 4 || zero [(1023, 192), (63, 44), (31, 28), (15, 15)] || decide (5 < aRnd p) || decide (4 < aFmt p) ||
        decide (3 < aOp p) || (aOp p = 0 && aMem p != 0) || ((aOp p = 1 || aOp p = 3) && aFmt p != 0), 1),
     (decide (Q < aRow p + aRows p), 2),
     (aOp p != 0 && (!nearRowsOk (aMem p) (aStride p) (aRows p) (aBytes p) ||
        aMem p % aBytes p != 0 || (decide (1 < aRows p) && aStride p % (aBytes p : Nat) != 0)), 3)]
  | f =>
    let mmg := f = 3
    low
    [(p % 16 != f || zero [(1023, 540), (527, 524), (383, 352), (255, 224), (127, 124), (111, 108), (63, 55), (47, 44), (15, 15)] ||
        (!mmg && zero [(539, 528), (523, 512), (511, 384)]) || decide (4 < mN p) || decide (5 < mG p) ||
        (mTheta p != 0 && mGate p != 1) || (mQs p != 0 && mGate p != 3), 1),
     (decide (T < mFirst p + mChains p * mLen p) || (decide (1 < mLen p) && mRows p % 32 != 0) ||
        decide (Q < mArow p + (if mmg then mRspan p else mVecs p * mChains p)), 2),
     (addrCls (mIn p) != .pad || addrCls (mIsc p) != .pad ||
        (mmg && (addrCls (mIdx p) != .pad || addrCls (mScat p) != .pad || mIdx p % 2 != 0 || mScat p % 2 != 0)), 3)]

/-- The entries that an operation has at other cores of its cluster. -/
def State.otherEntries (s : State) (o : SeqOp) : List Nat :=
  ((List.range 4).map (4 * (o.home / 4) + ·)).filter (fun g => g != o.home && (s.seqOp g o.id).isSome)

/-- The block of a multicast operation has been read: its entries at the other targets have it, and cores that are no targets hold none
(R215, R226). -/
def State.multicast (s : State) (o : SeqOp) (p : Nat) : State :=
  let aims := if o.form = 2 || o.form = 3 then o.aims.filter (· != o.home % 4) else []
  let s := forEach (s.otherEntries o) s (fun g t =>
    if aims.contains (g % 4) then (t.modOp g o.id (fun x => { x with params := some p })).schedule 0 38 (.seqStart g)
    else (t.modCore g (fun c => { c with seq := c.seq.filter (fun x => x.id != o.id) })).schedule 0 38 (.seqStart g))
  if aims = [] then s
  else
    let s := s.modOp o.home o.id (fun x => { x with targets := aims.foldl (fun m k => m ||| 2 ^ k) 0 })
    let late := aims.filter (fun k => (s.seqOp (4 * (o.home / 4) + k) o.id).isNone)
    let s := forEach late s (fun k t => t.schedule (o.issued + 16 - t.cycle) 36 (.multicastEnqueue (4 * (o.home / 4) + k) o.id))
    if o.aims.contains (o.home % 4) then s
    else s.modOp o.home o.id (fun x => { x with state := .retired })

/-- An operation that its block fails has no entries elsewhere. -/
def State.failBlock (s : State) (o : SeqOp) (why : Nat) : State :=
  let s := forEach (s.otherEntries o) s (fun g t =>
    (t.modCore g (fun c => { c with seq := c.seq.filter (fun x => x.id != o.id) })).schedule 0 38 (.seqStart g))
  ((s.modCore o.core (fun g => { g with score := g.score.filter (fun e => e.copy != o.id) })).failOp o why).nextBlockRead o.core

/-- Class and alignment of a parameter block (R216): the lower reason is of the class. -/
def State.blockReason (s : State) (o : SeqOp) : Option Nat :=
  let wrong := if isNear o.addr then decide (addrCls o.addr != .pad) else match s.seqTarget o o.addr 1 with
    | .ok t => (match t.place with | .hbm q _ => q != crewSett o.crew || t.window.isSome || t.rep | _ => true)
    | .space => true
    | _ => false
  if wrong then some 3 else if o.addr % 128 != 0 then some 4 else none

/-- SEQ_BLOCK_READ (R216, R217). -/
def execSeqBlockRead (core : Nat) (op : Nat) (s : State) : Out :=
  match s.seqOp core op with
  | none => .next s
  | some o =>
    if o.params.isSome || o.state != .queued || o.stopped || o.parkedOn.isSome then .next s
    else
      let ev : Event := .seqBlockRead core op
      if o.failed then .next (s.failBlock o 9)
      else match s.blockReason o with
      | some r => .next (s.failBlock o r)
      | none =>
        let (v, s) := s.seqLoad o o.addr 128
        match v with
        | .retry => .next (s.schedule 1 34 ev)
        | .miss va => .next (s.seqMiss o va .read ev)
        | .fault va kind level => .next (s.seqFault o va kind level .read ev)
        | .bad => .next (s.failBlock o 3)
        | .ok p bad =>
          if bad then .next (s.consumePoison o.crew 8)
          else
            let b := s.block o.block
            match badBlock o.form p b.arrays b.accum with
            | some r => .next (s.failBlock o r)
            | none =>
              let s := s.modCore core (fun g => { g with score := g.score.filter (fun e => e.copy != op) })
              let s := s.modOp core op (fun x => { x with params := some p })
              .next (((s.multicast { o with params := some p } p).schedule 0 38 (.seqStart core)).nextBlockRead core)

/-- mcmask of an operation: of its block as read, or as it lies in memory before (R215). -/
def State.maskOf? (s : State) (o : SeqOp) : Nat :=
  match o.params with
  | some p => mMask p
  | none =>
    let p := if isNear o.addr then (s.nearRead o.crew o.home (o.addr % 2 ^ 24) 128).1
      else match s.seqTarget o o.addr 128 with | .ok t => (s.memRead t 128).1 | _ => 0
    mMask p

/-- MULTICAST_ENQUEUE (R215, R226): the operation enters another target core's queue, 16 cycles after its issue; until its block has
been read it counts there as naming every slot and row. -/
def execMulticastEnqueue (core : Nat) (op : Nat) (s : State) : Out :=
  match s.cores.findSome? (fun p => if p.1 = 4 * (core / 4) + p.1 % 4 && p.1 != core then
      p.2.seq.find? (fun o => o.id = op && o.home = p.1) else none) with
  | none => .next s
  | some o =>
    if (s.seqOp core op).isSome || (o.params.isSome && !o.targets.testBit (core % 4)) || !(s.maskOf? o).testBit (core % 4) then .next s
    else
      -- a core without a block of the gang is found unreachable at the start
      let b := s.gangBlockOn (crewSett o.crew) (crewRec o.crew) core
      let e : SeqOp := { o with core := core, block := b.getD (2 ^ 60), state := .queued, targets := 0, reached := 0, missed := 0, reason := none,
                                done := 0, parkedOn := none, trapped := false, shared := [], flags := {}, entry := none }
      .next ((s.modCore core (fun g => { g with seq := g.seq ++ [e] })).schedule 0 38 (.seqStart core))

/-! ## Start (R215, R222, R226) -/

/-- Entries that hold a running place. -/
def Core.running (g : Core) : Nat := (g.seq.filter (fun o => o.state = .running)).length

/-- The oldest entry that may start. -/
def Core.startable (g : Core) : Option SeqOp :=
  let rec go : List SeqOp → List SeqOp → Option SeqOp
    | _, [] => none
    | old, o :: rest =>
      if o.state = .queued && !o.stopped && (o.form = 5 || o.params.isSome) && o.parkedOn.isNone && old.all (fun x => !x.blocks o) then some o
      else go (old ++ [o]) rest
  if 4 ≤ g.running then none else go [] g.seq

/-- The slots of an entry at its core. -/
def State.opTiles (s : State) (o : SeqOp) : List Tile :=
  match o.slots with
  | some (f, n) => (List.range n).map (fun i => Tab.get Tile.init (s.block o.block).slots (f + i))
  | none => []

/-- Some of n tile slots hold a poisoned sector (R422). -/
def State.slotPoison (s : State) (b first n : Nat) : Bool :=
  (s.block b).poison.any (fun z => decide (2 ^ 16 + 256 * first ≤ z) && decide (z < 2 ^ 16 + 256 * (first + n)))

/-- Those of an entry do. -/
def State.opPoison (s : State) (o : SeqOp) : Bool :=
  match o.slots with
  | some (f, n) => s.slotPoison o.block f n
  | none => false

/-- Time of a vector's inputs (R230). -/
def State.fetchTime (s : State) (o : SeqOp) (p : Nat) : Nat :=
  let (lat, rate) := s.seqRoute o (mIn p)
  let n := mLen p * mRows p
  lat + (n + (n + 31) / 32 + rate - 1) / rate

/-- Cycles of four planes of one vector. -/
def halfTime (p : Nat) : Nat := 4 * ((mRows p + groupOf (mG p) - 1) / groupOf (mG p)) * (2 * (2 + stepsOf (mW p)) * repeatsOf (mN p))

/-- 16-bit entries of a list. -/
def listOf (v n : Nat) : List Nat := (List.range n).map (fun e => v / 2 ^ (16 * e) % 2 ^ 16)

/-- The entries of a list as one number. -/
def listWord (l : List Nat) : Nat := l.foldr (fun e v => e + 2 ^ 16 * v) 0

/-- The checks at the start of an MMV or MMG (R216, R226, R229) and its first fetch. -/
def State.startProduct (s : State) (o : SeqOp) (p : Nat) : State :=
  let b := s.block o.block
  let tiles := s.opTiles o
  let rows := if o.form = 3 then mRspan p else mVecs p * mChains p
  if (s.core o.core).fenced || !b.live || b.ended || decide (b.arrays < mFirst p + mChains p * mLen p) || decide (b.accum < mArow p + rows) ||
      tiles.any (fun t => !t.compute) then s.endOp o none false 0
  else if tiles.any (fun t => decide (t.spanRows < groupOf (mG p))) then s.failOp o 6
  else
    let go (s : State) (delay : Nat) : State :=
      (s.modOp o.core o.id (fun x => { x with state := .running, gateTiming := s.gateBit o.core })).schedule
        (delay + s.fetchTime o p) 35 (.mmvFetchDone o.core o.id)
    if o.form = 2 then go s 0
    else
      let n := mEntries p
      let ahead := (s.seqOp o.home o.id).getD o
      let (a, s) := if ahead.gather = [] then s.seqLoad o (mIdx p) (2 * n) else (.ok (listWord ahead.gather) false, s)
      let (c, s) := if ahead.gather = [] then s.seqLoad o (mScat p) (2 * n) else (.ok (listWord ahead.scatter) false, s)
      match a, c with
      | .ok x q, .ok y r =>
        if q || r then s.consumePoison o.crew 1
        else
        let idx := listOf x n
        let scat := listOf y n
        if idx.any (fun v => v != 0xFFFF && decide (mVecs p ≤ v)) || scat.any (fun r => decide (mRspan p < r + mChains p)) then s.failOp o 8
        else
          let keep (z : SeqOp) : SeqOp := { z with gather := idx, scatter := scat }
          go ((s.modOp o.core o.id keep).modOp o.home o.id keep) (16 + (4 * n + 127) / 128)
      | .bad, _ | _, .bad => s.failOp o 3
      | _, _ => s.schedule 1 38 (.seqStart o.core)

/-- The first step of an operation that starts or resumes (R220, R222, R230, R235); `done` says where it goes on. DESIGN CHOICE
(log 111): the scratchpad allocation that bounds an AMODE's barrier (R219) is the declared size, not the rounded one. -/
def State.beginOp (s : State) (o : SeqOp) : State :=
  let run (s : State) : State := s.modOp o.core o.id (fun x => { x with state := .running })
  match o.form, o.params with
  | 5, _ =>
    let b := s.block o.block
    if o.addr.testBit 7 || o.addr.testBit 15 then s.failOp o 1
    else if b.arrays < oFirst o.addr + oCnt o.addr || b.scratch < 16 * oBar o.addr + 16 then s.failOp o 2
    else (s.modOp o.core o.id (fun x => { x with state := .waiting })).schedule 0 37 (.amodeSwitch o.core o.id)
  | 1, some p =>
    if (s.opTiles o).any (fun t => t.compute) then s.failOp o 5
    else
      let lat := if isNear (lScales p) then 0 else (s.seqRoute o (lScales p)).1
      (run s).schedule (lat + (if lSpan p = 0 then 8 else 72)) 35 (.mloadSlotDone o.core o.id)
  | 4, some p =>
    let (lat, rate) := s.seqRoute o (aMem p)
    let far := aOp p = 2 && isNear (aMem p) && nearCore o.home (aMem p % 2 ^ 24) != o.home
    (run s).schedule (if aOp p = 0 then 4 else (if far then 256 else lat) + (aBytes p + rate - 1) / rate) 35 (.accRowDone o.core o.id)
  | _, some p => s.startProduct o p
  | _, none => s

/-- SEQ_START (R215): one entry starts in a cycle. -/
def execSeqStart (core : Nat) (s : State) : Out :=
  let g := s.core core
  if g.restoring.isSome || g.fenced then .next s
  else match g.startable with
    | none => .next s
    | some o =>
      if s.cycle < o.issued + 1 then .next (s.schedule 1 38 (.seqStart core))
      else .next ((s.beginOp o).schedule 1 38 (.seqStart core))

/-! ## AMODE (R220) -/

/-- The phase test of R220 on the low 8 bits. -/
def amodeReady (o : BarObj) (ph : Nat) : Bool :=
  let d := (o.phase % 256 + 256 - ph) % 256
  o.broken || (decide (1 ≤ d) && decide (d ≤ 127))

/-- A copy in flight on the core has a destination in the run (R220). -/
def State.copyInto (s : State) (core gang first n : Nat) : Bool :=
  (s.core core).score.any (fun e => (s.copy e.copy).isSome && s.meets core gang (nwb + 2 * 2 ^ 21 + 16384 * first) (16384 * n) e)

/-- AMODE_SWITCH (R220): with its phase ended, no copy in the run and a running place, the slots switch; a switch to storage mode that
has had its cycles ends. -/
def execAmodeSwitch (core : Nat) (op : Nat) (s : State) : Out :=
  match s.seqOp core op with
  | none => .next s
  | some o =>
    if o.state = .running && !o.compute then
      .next ((s.modOp core op (fun x => { x with done := oCnt o.addr })).endOp o none true 0)
    else if o.state != .waiting || o.stopped then .next s
    else
      let bar := s.barrier o.block (16 * oBar o.addr)
      let first := oFirst o.addr
      let n := oCnt o.addr
      if bar.broken then .next (s.failOp o 7)
      else if !amodeReady bar (oPhase o.addr) || s.copyInto core (crewRec o.crew) first n || 4 ≤ (s.core core).running || (s.core core).restoring.isSome then
        .next (s.schedule 1 37 (.amodeSwitch core op))
      else
        let s := s.modOp core op (fun x => { x with state := .running })
        let o := { o with state := .running }
        let slots := (List.range n).map (first + ·)
        let tile (j : Nat) : Tile := Tab.get Tile.init (s.block o.block).slots j
        if o.compute && s.slotPoison o.block first n then .next (s.consumePoison o.crew 1)
        else if o.compute then
          let turn := slots.filter (fun j => !(tile j).compute || !(tile j).sums)
          let s := s.modBlock o.block (fun b => { b with slots := turn.foldl (fun t j =>
            Tab.modify Tile.init t j (fun x => { x with compute := true })) b.slots })
          .next (if turn = [] then s.schedule 1 35 (.columnSumDone core op) else s.schedule 256 35 (.columnSumDone core op))
        else
          let turn := slots.filter (fun j => (tile j).compute)
          let s := forEach turn s (fun j t => t.schedule 16 35 (.amodeStorageEntry o.block j))
          .next (s.schedule (if turn = [] then 1 else 17) 37 (.amodeSwitch core op))

/-- A slot in compute mode enters storage mode. -/
def Tile.toStorage (t : Tile) : Tile := if t.compute then { t with compute := false, sums := false, wpos := [], wneg := [] } else t

/-- AMODE_STORAGE_ENTRY (R220): the slot enters storage mode and its column sums become invalid. -/
def execAmodeStorageEntry (block : Nat) (slot : Nat) (s : State) : Out :=
  .next (if (s.block block).live then
      s.modBlock block (fun b => { b with slots := Tab.modify Tile.init b.slots slot Tile.toStorage })
    else s)

/-- COLUMN_SUM_DONE (R220): the sums of every slot of the run stand, and the AMODE retires. -/
def execColumnSumDone (core : Nat) (op : Nat) (s : State) : Out :=
  match s.seqOp core op with
  | none => .next s
  | some o =>
    if o.state != .running || o.stopped then .next s
    else
      let n := oCnt o.addr
      let s := s.modBlock o.block (fun b => { b with slots := ((List.range n).map (oFirst o.addr + ·)).foldl (fun t j =>
        Tab.modify Tile.init t j (fun x => if x.sums then x else x.withSums)) b.slots })
      .next ((s.modOp core op (fun x => { x with done := n })).endOp o none true 0)

/-! ## MLOAD (R222) -/

/-- MLOAD_SLOT_DONE: one slot has its scales and its rescaled weights. -/
def execMloadSlotDone (core : Nat) (op : Nat) (s : State) : Out :=
  match s.seqOp core op with
  | none => .next s
  | some o =>
    match o.params with
    | none => .next s
    | some p =>
      if o.state != .running || o.parkedOn.isSome then .next s
      else if o.failed then .next (s.failOp o 9)
      else
        let ev : Event := .mloadSlotDone core op
        let va := wrap 64 (lScales p + 512 * o.done : Nat)
        let (v, s) := s.seqLoad o va 512
        match v with
        | .retry => .next (s.schedule 1 35 ev)
        | .miss va => .next (s.seqMiss o va .read ev)
        | .fault va kind level => .next (s.seqFault o va kind level .read ev)
        | .bad => .next (s.failOp o 3)
        | .ok w bad =>
          if bad || s.slotPoison o.block (lFirst p + o.done) 1 then .next (s.consumePoison o.crew (if bad then 8 else 1))
          else
            let bytes := (List.range 512).map (fun k => w / 256 ^ k % 256)
            let load (b : Block) : Tab Tile := Tab.modify Tile.init b.slots (lFirst p + o.done) (fun t => t.load bytes (lSpan p))
            let s := s.modBlock o.block (fun b => { b with slots := load b })
            let s := s.modOp core op (fun x => { x with done := x.done + 1 })
            if o.done + 1 = lCnt p then .next (s.endOp o none true 0)
            else if o.stopped then .next s
            else .next (s.schedule (if lSpan p = 0 then 8 else 72) 35 ev)

/-! ## MMV and MMG (R227 to R230) -/

/-- Conversion of the next vector begins once its inputs are there and the one before it is converted (R230). -/
def State.beginHigh (s : State) (core op : Nat) : State :=
  match s.seqOp core op with
  | none => s
  | some o =>
    match o.params with
    | none => s
    | some p =>
      if o.converting || !o.inputs.any (fun x => x.1 = o.vec) then s
      else (s.modOp core op (fun x => { x with converting := true })).schedule (halfTime p) 35 (.mmvHighPlanesDone core op)

/-- MMV_FETCH_DONE: the elements and scales of one vector are in the input buffer. -/
def execMmvFetchDone (core : Nat) (op : Nat) (s : State) : Out :=
  match s.seqOp core op with
  | none => .next s
  | some o =>
    match o.params with
    | none => .next s
    | some p =>
      if o.state != .running || o.stopped || o.parkedOn.isSome || o.count ≤ o.fetched then .next s
      else
        let ev : Event := .mmvFetchDone core op
        let put (s : State) (elems scales : List Nat) : State :=
          let s := s.modOp core op (fun x => { x with inputs := x.inputs ++ [(o.fetched, elems, scales)], fetched := x.fetched + 1 })
          let s := if o.fetched + 1 < o.count then s.schedule (s.fetchTime o p) 35 ev else s
          s.beginHigh core op
        match o.vector o.fetched with
        | none => .next (put s [] [])
        | some v =>
          let n := mLen p * mRows p
          let ns := (n + 31) / 32
          let many := o.aims != [o.home % 4]
          match ((s.seqOp o.home op).getD o).shared.find? (fun y => y.1 = o.fetched) with
          | some y => .next (put s y.2.1 y.2.2)
          | none =>
            let at_ := wrap 64 (mIn p + v * mIstride p : Nat)
            let sc := wrap 64 (mIsc p + v * mSstride p : Nat)
            if !padBytesAt at_ n || !padBytesAt sc ns then .next (s.failOp o 3)
            else
              let (a, s) := s.seqLoad o at_ n
              let (b, s) := s.seqLoad o sc ns
              match a, b with
              | .ok x q, .ok y r =>
                if q || r || s.opPoison o then .next (s.consumePoison o.crew 1)
                else
                  let xs := (List.range n).map (fun k => x / 256 ^ k % 256)
                  let ys := (List.range ns).map (fun k => y / 256 ^ k % 256)
                  let s := if many then s.modOp o.home op (fun z => { z with shared := z.shared ++ [(o.fetched, xs, ys)] }) else s
                  .next (put s xs ys)
              | _, _ => .next (s.schedule 1 35 ev)

/-- The groups of the vector in progress for every slot of a chain. -/
def SeqOp.groupsOf (o : SeqOp) (p e : Nat) : List Grp :=
  match o.inputs.find? (fun x => x.1 = e) with
  | none => []
  | some x => (List.range (mLen p)).flatMap (slotGroups (mProd p) x.2.1 x.2.2)

/-- Slot of a group in chain c. -/
def State.chainTile (s : State) (o : SeqOp) (p c : Nat) (g : Grp) : Tile :=
  Tab.get Tile.init (s.block o.block).slots (mFirst p + c * mLen p + g.slot)

def planeKey (p c col : Nat) (g : Grp) (j : Nat) : Nat :=
  (((c * mLen p + g.slot) * 64 + col) * 32 + g.row / groupOf (mG p)) * 8 + j

/-- Convert planes of the vector in progress in the columns that `want` names; one draw serves the step (log 7). -/
def State.convert (s : State) (o : SeqOp) (p : Nat) (js : List Nat) (want : Nat → Nat → Bool) (d : Nat) : Tab Int :=
  (List.range (mChains p)).foldl (fun t c => (o.groupsOf p o.vec).foldl (fun t g =>
    let tile := s.chainTile o p c g
    (List.range 64).foldl (fun t col =>
      if !want c col then t
      else
        let ws := tile.columnOf g.row g.xs.length col
        js.foldl (fun t j => Tab.set 0 t (planeKey p c col g j)
          (silicon (mProd p) (chargeSum j g.xs ws) (Config.deviation d (planeKey p c col g j)))) t) t) t) o.planes

/-- P of a group from its planes, in sixteenths, over the planes of a list. -/
def SeqOp.partSum (o : SeqOp) (p c col : Nat) (g : Grp) (js : List Nat) : Int :=
  js.foldl (fun a j => a + planeWeight j * Tab.get 0 o.planes (planeKey p c col g j)) 0

/-- The accumulation of a column with the P that `f` gives each group. -/
def State.column (s : State) (o : SeqOp) (p e c col : Nat) (f : Grp → Tile → Int) : Nat :=
  accumulate (Tab.get 0 o.starts (64 * c + col)).toNat
    ((o.groupsOf p e).map (fun g => let t := s.chainTile o p c g
                                    groupTerm t g col (f g t)))

/-- The gate's decision for a column (R205, R206). -/
def State.gateColumn (s : State) (o : SeqOp) (p c col : Nat) : Option Nat :=
  let pr := mProd p
  if pr.gate = 0 then none
  else
    let at_ (lo : Bool) : Nat := s.column o p o.vec c col (fun g t =>
      let (wp, wn) := t.groupSums g.row pr.G col
      o.partSum p c col g [7, 6, 5, 4] + 15 * refShat pr (if lo then wn else wp))
    gateSkip pr (at_ true) (at_ false)

/-- MMV_HIGH_PLANES_DONE (R195, R205, R227): start values are read and the gate decides; under the gate-timing bit the low
planes take no time where every column is skipped (R208, R209). -/
def execMmvHighPlanesDone (core : Nat) (op : Nat) (s : State) : Out :=
  match s.seqOp core op with
  | none => .next s
  | some o =>
    match o.params with
    | none => .next s
    | some p =>
      if o.state != .running || o.stopped || !o.converting then .next s
      else if mAcc p && (List.range (mChains p)).any (fun c => (s.block o.block).poison.contains (2 ^ 17 + o.row o.vec c)) then
        .next (s.consumePoison o.crew 2)
      else
        let (d, s) := s.draw
        let P := mChains p
        let cols := (List.range P).flatMap (fun c => (List.range 64).map (fun k => (c, k)))
        let acc := (s.block o.block).acc
        let o := { o with planes := [], skips := [], starts := [] }
        let o := { o with
          planes := s.convert o p [7, 6, 5, 4] (fun _ _ => true) d
          starts := if mAcc p then cols.foldl (fun t x =>
            Tab.set 0 t (64 * x.1 + x.2) (Tab.get 0 acc (64 * o.row o.vec x.1 + x.2))) [] else [] }
        let skips : Tab (Option Word) := cols.foldl (fun (t : Tab (Option Word)) x =>
          match s.gateColumn o p x.1 x.2 with
          | some r => Tab.set none t (64 * x.1 + x.2) (some (BitVec.ofNat 32 r))
          | none => t) []
        let idle := o.gateTiming && decide (skips.length = cols.length)
        let s := s.modOp core op (fun x => { x with planes := o.planes, starts := o.starts, skips := skips })
        .next (s.schedule (if idle then 0 else halfTime p) 35 (.mmvLowPlanesDone core op))

/-- MMV_LOW_PLANES_DONE (R195, R206). -/
def execMmvLowPlanesDone (core : Nat) (op : Nat) (s : State) : Out :=
  match s.seqOp core op with
  | none => .next s
  | some o =>
    match o.params with
    | none => .next s
    | some p =>
      if o.state != .running || o.stopped || !o.converting then .next s
      else
        let (d, s) := s.draw
        let planes := s.convert o p [3, 2, 1, 0] (fun c col => (Tab.get none o.skips (64 * c + col)).isNone) d
        let s := s.modOp core op (fun x => { x with planes := planes, converting := false, sumv := x.vec, vec := x.vec + 1 })
        .next ((s.schedule 8 35 (.mmvSumDone core op)).beginHigh core op)

/-- MMV_SUM_DONE (R203, R204, R228): the rows of a vector are computed; their commits follow. -/
def execMmvSumDone (core : Nat) (op : Nat) (s : State) : Out :=
  match s.seqOp core op with
  | none => .next s
  | some o =>
    match o.params with
    | none => .next s
    | some p =>
      if o.state != .running || o.stopped then .next s
      else
        let cols := (List.range (mChains p)).flatMap (fun c => (List.range 64).map (fun k => (c, k)))
        let sums : Tab Word := if (o.vector o.sumv).isNone then [] else cols.foldl (fun (t : Tab Word) x =>
          let y := match Tab.get none o.skips (64 * x.1 + x.2) with
            | some r => r
            | none => BitVec.ofNat 32 (gateExact (mProd p) (s.column o p o.sumv x.1 x.2 (fun g _ =>
                o.partSum p x.1 x.2 g [7, 6, 5, 4, 3, 2, 1, 0])))
          Tab.set 0 t (64 * x.1 + x.2) y) []
        let s := s.modOp core op (fun x => { x with sums := sums, inputs := x.inputs.filter (fun y => decide (o.sumv < y.1)) })
        .next (s.schedule 0 36 (.rowCommit core op))

/-- ROW_COMMIT (R227, R231): one row is written and counted in one step; the operation retires one cycle after its last. -/
def execRowCommit (core : Nat) (op : Nat) (s : State) : Out :=
  match s.seqOp core op with
  | none => .next s
  | some o =>
    match o.params with
    | none => .next s
    | some p =>
      if o.state != .running || o.stopped then .next s
      else
        let P := mChains p
        let c := o.done % P
        let row := o.row o.sumv c
        let s := if (o.vector o.sumv).isNone then s
                 else (s.markBlock o.block [2 ^ 17 + row] false).modBlock o.block (fun b =>
                   { b with acc := (List.range 64).foldl (fun t k => Tab.set 0 t (64 * row + k) (Tab.get 0 o.sums (64 * c + k))) b.acc })
        let s := s.modOp core op (fun x => { x with done := x.done + 1 })
        if c + 1 < P then .next (s.schedule 1 36 (.rowCommit core op))
        else if o.done + 1 = o.count * P then .next (s.endOp o none true 1)
        else .next s

/-! ## ACC (R235) -/

/-- The bytes of an accumulator row in the format of a STORE. -/
def accBytes (p : Nat) (row : Nat → Nat) : Nat :=
  let F := match aFmt p with | 1 => Fmt.bf16 | 2 => Fmt.fp16 | 3 => Fmt.e4m3 | _ => Fmt.e5m2
  let w := aBytes p / 64
  (List.range 64).foldr (fun c v =>
    (if aFmt p = 0 then row c else F.round (aRnd p) (fin32 (aRnd p) (row c))) + 256 ^ w * v) 0

/-- A row of an ACC STORE that leaves for device memory: an engine write with the ACC's stamp (R218, R283); a poisoned row poisons what it
writes (R422). -/
def State.sendRow (s : State) (o : SeqOp) (va n v : Nat) (t : Target) (q : Nat) (bad : Bool) : State :=
  let (rid, s) := s.fresh
  let r : Req :=
    { kind := .store, crew := o.crew, pc := o.pc, size := n, issued := s.cycle, phase := 2, group := o.id + 1, stamp := o.stamp,
      frontier := o.frontier, told := o.told, poison := bad,
      lanes := [{ lane := o.lane, va := va, target := some t, data := v, out := true, free := true }] }
  (s.setReq rid (some r)).schedule (256 + 75) homeKey (.wr q rid)

/-- A row of an ACC STORE to a scratchpad of the cluster; for another core it is an outside input (R417). -/
def State.padRow (s : State) (o : SeqOp) (va n v : Nat) : State :=
  let (t, f) := s.nearWrite o.crew o.home (va % 2 ^ 24) v n
  let t := t.modOp o.core o.id (fun x => { x with flags := x.flags.or f })
  let t := match s.nearPlace o.crew o.home (va % 2 ^ 24) with
    | some (.pad b off) => t.markBlock b ((Place.pad b off).sectors n true) false
    | _ => t
  let g := nearCore o.home (va % 2 ^ 24)
  if g = o.home then t
  else match s.nearPlace o.crew o.home (va % 2 ^ 24) with
    | some (.pad b off) => t.redo g (.pad 0 b off n v)
    | _ => t

/-- ACC_ROW_DONE (R231, R235): one row is moved and counted; after the last one the operation waits for its memory writes (R218). -/
def execAccRowDone (core : Nat) (op : Nat) (s : State) : Out :=
  match s.seqOp core op with
  | none => .next s
  | some o =>
    match o.params with
    | none => .next s
    | some p =>
      if o.state != .running || o.stopped || o.parkedOn.isSome then .next s
      else if o.failed then .next (s.failOp o 9)
      else if aRows p ≤ o.done then
        .next (if s.accWrites op then s.schedule 1 35 (.accRowDone core op) else s.endOp o none true 0)
      else
        let ev : Event := .accRowDone core op
        let i := o.done
        let row := aRow p + i
        let n := aBytes p
        let va := rowAddr (aMem p) (aStride p) i
        let old (c : Nat) : Nat := (Tab.get 0 (s.block o.block).acc (64 * row + c)).toNat
        let rate := (s.seqRoute o (aMem p)).2
        let next (s : State) : State :=
          let s := s.modOp core op (fun x => { x with done := i + 1 })
          if i + 1 = aRows p then (if s.accWrites op then s.schedule 1 35 ev else s.endOp o none true 0)
          else s.schedule (if aOp p = 0 then 4 else (n + rate - 1) / rate) 35 ev
        let rowBad := (s.block o.block).poison.contains (2 ^ 17 + row)
        let put (s : State) (f : Nat → Nat) : State :=
          (s.markBlock o.block [2 ^ 17 + row] false).modBlock o.block (fun b =>
            { b with acc := (List.range 64).foldl (fun t c => Tab.set 0 t (64 * row + c) (BitVec.ofNat 32 (f c))) b.acc })
        match aOp p with
        | 0 => .next (next (put s (fun _ => 0)))
        | 2 =>
          let v := accBytes p old
          if isNear va then
            if !padBytesAt va n then .next (s.failOp o 3)
            else if nearCore o.home (va % 2 ^ 24) = o.home && s.scoredBut o va n then .next (s.schedule 1 35 ev)
            else
              let s := next (s.padRow o va n v)
              .next (if rowBad then s.consumePoison o.crew 2 else s)
          else
            (match s.translate (crewSett o.crew) o.home va n .write true with
              | .miss => .next (s.seqMiss o va .write ev)
              | .space => .next (s.failOp o 3)
              | .fault kind level => .next (s.seqFault o va kind level .write ev)
              | .ok t =>
                match t.place with
                | .hbm q _ =>
                  if q != crewSett o.crew || t.window.isSome || t.rep then .next (s.failOp o 3)
                  else .next (next (s.sendRow o va n v t q rowBad))
                | _ => .next (s.failOp o 3))
        | k =>
          let (v, s) := s.seqLoad o va 256
          match v with
          | .retry => .next (s.schedule 1 35 ev)
          | .miss va => .next (s.seqMiss o va .read ev)
          | .fault va kind level => .next (s.seqFault o va kind level .read ev)
          | .bad => .next (s.failOp o 3)
          | .ok w bad =>
            if bad || (k != 1 && rowBad) then .next (s.consumePoison o.crew (if bad then 8 else 2))
            else
              let m (c : Nat) : Nat := w / 2 ^ (32 * c) % 2 ^ 32
              .next (next (put s (fun c => if k = 1 then m c else fadd32 (aRnd p) (old c) (m c))))

/-! ## Stop and resumption (R232, R233) -/

/-- Steps of an entry that are to come. -/
def opEvent (core op : Nat) (e : Event) : Bool :=
  match e with
  | .seqBlockRead c o | .amodeSwitch c o | .columnSumDone c o | .mloadSlotDone c o | .mmvFetchDone c o
  | .mmvHighPlanesDone c o | .mmvLowPlanesDone c o | .mmvSumDone c o | .rowCommit c o | .accRowDone c o => c = core && o = op
  | _ => false

/-- SEQ_STOP_REQUEST (R232): what has been done since the last commit is discarded; an AMODE that has switched completes, and
an MLOAD finishes its slot. -/
def execSeqStopRequest (core : Nat) (op : Nat) (s : State) : Out :=
  match s.seqOp core op with
  | none => .next s
  | some o =>
    if o.state = .retired || o.stopped then .next s
    else if o.form = 5 && o.state = .running && o.compute then execColumnSumDone core op (s.unschedule (opEvent core op))
    else if o.form = 5 && o.state = .running then
      -- the slots that are on their way to storage mode have switched (R232)
      let slots := (List.range (oCnt o.addr)).map (oFirst o.addr + ·)
      let s := s.unschedule (fun e => opEvent core op e || (match e with | .amodeStorageEntry b j => b = o.block && slots.contains j | _ => false))
      let stored (t : Tab Tile) : Tab Tile := slots.foldl (fun t j => Tab.modify Tile.init t j Tile.toStorage) t
      execAmodeSwitch core op (s.modBlock o.block (fun b => { b with slots := stored b.slots }))
    else
      let s := s.dropWaiters (crewSett o.crew) (fun w => match w with | .seq g i _ _ => g = core && i = op | _ => false)
      let keep := o.form = 1 && o.state = .running && o.parkedOn.isNone
      let s := s.unschedule (opEvent core op)
      let cut := fun (x : SeqOp) => { x with
          stopped := true, inputs := [], planes := [], starts := [], skips := [], sums := [], converting := false, parkedOn := none,
          shared := [] }
      let s := s.modOp core op cut
      .next (if keep then s.schedule 0 35 (.mloadSlotDone core op) else s)

/-- A stopped entry goes on: the vector that holds row `done` is fetched and converted again (R232). -/
def State.resumeOp (s : State) (o : SeqOp) : State :=
  let s := s.unschedule (opEvent o.core o.id)
  let s := s.modOp o.core o.id (fun x => { x with
    stopped := false, inputs := [], planes := [], starts := [], skips := [], sums := [], converting := false, parkedOn := none })
  match o.state, o.params with
  | .running, some p =>
    if o.form = 1 || o.form = 4 then s.beginOp { o with stopped := false }
    else
      let v := o.done / mChains p
      (s.modOp o.core o.id (fun x => { x with vec := v, fetched := v, sumv := v })).schedule (s.fetchTime o p) 35 (.mmvFetchDone o.core o.id)
  | .running, none =>
    (s.modOp o.core o.id (fun x => { x with state := .waiting })).schedule 0 37 (.amodeSwitch o.core o.id)
  | .waiting, _ => (s.modOp o.core o.id (fun x => { x with state := .queued })).schedule 0 38 (.seqStart o.core)
  | .queued, none =>
    -- a block that is not read yet stands in the range scoreboard (R217)
    let held := (s.core o.core).score.any (fun e => e.copy = o.id)
    let s := if o.form = 5 || o.home != o.core || held then s
             else s.modCore o.core (fun g => { g with score := g.score ++ [⟨o.id, o.addr, o.addr + 127, crewRec o.crew⟩] })
    s.schedule 0 38 (.seqStart o.core)
  | .queued, _ => s.schedule 0 38 (.seqStart o.core)
  | .retired, _ => s.schedule 0 39 (.seqOpRetire o.core o.id)

/-- Every operation of a core that satisfies a condition goes on. -/
def State.resumeSeq (s : State) (core : Nat) (p : SeqOp → Bool) : State :=
  let ops := (s.core core).seq.filter p
  (ops.foldl (fun s o => s.resumeOp o) s).nextBlockRead core

end Sys2Proof.Machine
end

