-- ==== Sys2Proof/Machine/Lease.lean ====
section
/-! DEFINITION. Spill leases (spec/06, R179; spec/09, R251 to R253). -/

namespace Sys2Proof.Machine

/-- Free arrays of a core (R236, R433); leases that it lends hold one each. -/
def State.freeArrays (s : State) (g : Nat) : Nat :=
  let c := s.core g
  128 - (c.l1Size / 16 + (s.blocksOn g).foldl (fun n b => n + (s.block b).arrayCount) 0 + c.lent.length + c.retired)

/-- The other core of the cluster with the most free arrays, the lowest-numbered of equals (R251). -/
def State.lenderFor (s : State) (g : Nat) : Option Nat :=
  (clusterCores g).foldl (fun (best : Option Nat) c =>
    if c = g || (s.core c).fenced || s.freeArrays c = 0 then best
    else match best with
      | none => some c
      | some b => if s.freeArrays b < s.freeArrays c then some c else some b) none

/-- Cycles of a move of n registers (R251). -/
def leaseTime (n : Nat) (lender : Bool) : Nat := (if lender then 48 else 676) + 16 * ((136 * n + 255) / 256)

/-- Address of lease i of a crew in the gang's backing area (R252). -/
def State.leaseAddr (s : State) (k i : Nat) : Nat :=
  (s.record (crewSett k) (crewRec k)).spill + 17408 * (32 * blockId (crewBlock k) + k % 32) + 4352 * i

def Crew.lease (c : Crew) (i : Nat) : Option Lease := Tab.get none c.leases i
def Crew.setLease (c : Crew) (i : Nat) (x : Option Lease) : Crew := { c with leases := Tab.set none c.leases i x }

/-- The lease of a first register and count. -/
def Crew.leaseOf (c : Crew) (first n : Nat) : Option (Nat × Lease) :=
  c.leases.findSome? (fun p => match p.2 with
    | some x => if x.first = first && x.count = n then some (p.1, x) else none
    | none => none)

/-- The lender's array becomes free. -/
def State.endLoan (s : State) (k i : Nat) (lender : Option Nat) : State :=
  match lender with
  | none => s
  | some g => s.modCore g (fun c => { c with lent := c.lent.filter (fun l => l != (k, i)) })

/-- A lease as the backing area holds it (R252). -/
def Lease.image (x : Lease) : Nat :=
  (List.range x.count).foldl (fun v k =>
    v + ((List.range 32).foldr (fun l w => (Tab.get {} x.slots (32 * k + l)).val.toNat + 2 ^ 32 * w) 0) * 256 ^ (128 * k)
      + ((List.range 32).foldr (fun l w => (Tab.get {} x.slots (32 * k + l)).cnt.toNat + 4 * w) 0) * 256 ^ (4096 + 8 * k)) 0

/-- The slots of an image. -/
def Lease.ofImage (v count : Nat) : Tab Slot :=
  (List.range count).foldl (fun t k => (List.range 32).foldl (fun t l =>
    Tab.set {} t (32 * k + l) { val := BitVec.ofNat 32 (v / 256 ^ (128 * k + 4 * l)),
                                cnt := BitVec.ofNat 2 (v / 256 ^ (4096 + 8 * k) / 4 ^ l) }) t) []

/-! ## The backing area -/

/-- What an access of the hub to the backing area does. -/
inductive Backing where
  | ok (v : Nat) (s : State)
  | wait (s : State)
  | lost (s : State)

/-- Targets of the registers and of the counts of a lease of n registers through the engine's walk; the rest of its part of the area
is not touched (R252). -/
def State.backingParts (s : State) (sett va n : Nat) (acc : Access) : Buffer :=
  let parts := pageParts va (128 * n) ++ (pageParts (va + 4096) (8 * n)).map (fun p => (p.1, p.2.1, p.2.2 + 4096))
  let ts := parts.map (fun p => (p, s.engineTarget sett p.1 p.2.1 acc))
  match ts.find? (fun t => match t.2 with | .ok _ => false | _ => true) with
  | some (p, .fault kind level) => .fault p.1 kind level
  | some (p, _) => .fault p.1 8 0
  | none => .ok (ts.filterMap (fun t => match t.2 with | .ok x => some (t.1.2.1, t.1.2.2, x) | _ => none))

/-- Write or read a lease's part of the backing area; replayable faults wait for the fill, others lose the lease
(R253). -/
def State.backing (s : State) (k i : Nat) (x : Lease) (write : Bool) : Backing :=
  let sett := crewSett k
  let acc : Access := if write then .write else .read
  if (s.record sett (crewRec k)).spill = 0 then .lost s
  else match s.backingParts sett (s.leaseAddr k i) x.count acc with
  | .fault va kind _ =>
    let known := (s.sett sett).faults.any (fun p => p.2.res != 3 && p.2.va = va && p.2.kind = kind)
    let s := if known then s else s.engineFault sett va acc
    if replayable kind then .wait s else .lost s
  | .ok parts =>
    if write then
      let (ok, s) := s.partsWritable parts
      if !ok then .wait s
      else
        let v := x.image
        .ok 0 (parts.foldl (fun s p => match p.2.2.place with
          | .hbm q a => (s.homeWrite { sett := q, addr := a, n := p.1, value := v / 256 ^ p.2.1 % 256 ^ p.1, key := p.2.2.key,
                                       launch := some (s.launchOf k) }).2
          | _ => s.memWrite p.2.2 p.1 (v / 256 ^ p.2.1 % 256 ^ p.1) none) s)
    else
      let (ok, s) := s.partsReady parts
      if !ok then .wait s
      else
        let (v, s) := s.readParts parts 4352
        .ok v s

/-! ## LEASE (R179) -/

/-- Count operand and traps common to the three functions; a range outside the window or the allocation is among the traps of
`Crew.operandTrap`. -/
def leaseInstr (x : Instr) (d a : BitVec 7) (why : Crew → Nat → Nat → State → Bool)
    (body : Issue → Crew → Nat → Nat → Out) (s : State) : Out :=
  let n (u : Issue) : Nat :=
    let c := s.crew u.crew
    (c.slot (c.win a.toNat) ((c.active x u.lanes).headD 0)).val.toNat
  let trap (u : Issue) : Option (Trap × Nat) :=
    let c := s.crew u.crew
    let n := n u
    if c.active x u.lanes = [] then none
    else if n = 0 || 32 < n then some (.lease, 0)
    else if why c (c.win d.toNat) n s then some (.lease, 0)
    else none
  s.issueMem x trap (fun u =>
    let c := s.crew u.crew
    let act := c.active x u.lanes
    if act = [] then .next (s.finish u x c)
    else body u (c.countReads (info x).readRegs act) (c.win d.toNat) (n u))

/-- LEASE.spill: the registers leave for the lender, or for the backing area where no core has room, and are released. -/
def execLeaseSpill (px : Option Pfx) (d : BitVec 7) (a : BitVec 7) (g : BitVec 4) (s : State) : Out :=
  let x : Instr := .leaseSpill px d a g
  leaseInstr x d a
    (fun c first _ s =>
      4 ≤ c.leases.length || c.leases.any (fun p => match p.2 with | some y => y.first = first | none => false) ||
      ((s.lenderFor c.core).isNone && (s.record (blockSett c.block) (blockRec c.block)).spill = 0))
    (fun u c first n =>
      let i := ((List.range 4).find? (fun i => (c.lease i).isNone)).getD 0
      let lender := s.lenderFor c.core
      let slots : Tab Slot := (List.range n).foldl (fun (t : Tab Slot) k => (List.range 32).foldl (fun (t : Tab Slot) l =>
        let y := c.slot (first + k) l
        Tab.set {} t (32 * k + l) { y with rel := false }) t) []
      let k := (List.range n).foldl (fun (c : Crew) k => (List.range 32).foldl (fun (c : Crew) l =>
        c.setSlot (first + k) l { (c.slot (first + k) l) with cnt := 0, rel := true }) c) c
      let y : Lease := { first := first, count := n, place := .moving, lender := lender, revoked := lender.isNone, slots := slots, pc := u.pc }
      let s := s.finish u x { (k.setLease i (some y)) with stores := k.stores + 1 }
      let s := match lender with
        | some g => s.modCore g (fun z => { z with lent := z.lent ++ [(u.crew, i)] })
        | none => s
      .next (s.schedule (leaseTime n lender.isSome) 48 (.leasePlaced u.crew i))) s

/-- LEASE.fill: the registers are in flight until the data arrives. -/
def execLeaseFill (px : Option Pfx) (d : BitVec 7) (a : BitVec 7) (g : BitVec 4) (s : State) : Out :=
  let x : Instr := .leaseFill px d a g
  leaseInstr x d a
    (fun c first n _ => match c.leaseOf first n with | some (_, y) => y.place = .lost | none => true)
    (fun u c first n =>
      match c.leaseOf first n with
      | none => .next s
      | some (i, y) =>
        if y.place = .moving || y.place = .filling then .next s
        else
          let near := match y.place with | .lender _ => true | _ => false
          let k := { (c.setLease i (some { y with place := .filling })) with
            loads := c.loads + 1, inFlight := c.inFlight ++ (List.range n).map (first + ·) }
          .next ((s.finish u x k).schedule (leaseTime n near) 48 (.leaseFillData u.crew i))) s

/-- LEASE.drop. -/
def execLeaseDrop (px : Option Pfx) (d : BitVec 7) (a : BitVec 7) (g : BitVec 4) (s : State) : Out :=
  let x : Instr := .leaseDrop px d a g
  leaseInstr x d a (fun c first n _ => (c.leaseOf first n).isNone)
    (fun u c first n =>
      match c.leaseOf first n with
      | none => .next s
      | some (i, y) =>
        if y.place = .moving || y.place = .filling then .next s
        else .next ((s.finish u x (c.setLease i none)).endLoan u.crew i y.lender)) s

/-! ## Events -/

/-- A lease whose part of the backing area cannot be written is lost. Where the gang has no backing area, the crew that opened it takes
a lease trap, which waits while the list of deferred traps is full (R319; log 114); false then. -/
def State.loseLease (s : State) (k : Nat) (y : Lease) : Bool × State :=
  if (s.record (crewSett k) (crewRec k)).spill != 0 then (true, s) else s.deferTrap k .lease y.pc 0

/-- LEASE_PLACED (R251): the data is at the lender, or in the backing area where the lease has none any more. -/
def execLeasePlaced (crew : Nat) (lease : Nat) (s : State) : Out :=
  match (s.crew crew).lease lease with
  | none => .next s
  | some y =>
    if y.place != .moving then .next s
    else
      let done (s : State) (at_ : LeaseAt) : State :=
        let s := s.modCrew crew (fun c => { (c.setLease lease (some { y with place := at_ })) with stores := c.stores - 1 })
        (s.settleFences crew).checkEnd crew
      match y.lender with
      | some g => .next (done s (.lender g))
      | none =>
        match s.backing crew lease y true with
        | .ok _ s => .next (done s .backing)
        | .wait s => .next (s.schedule 16 48 (.leasePlaced crew lease))
        | .lost s =>
          let (ok, s) := s.loseLease crew y
          .next (if ok then done s .lost else s.schedule 16 48 (.leasePlaced crew lease))

/-- LEASE_FILL_DATA (R251): contents and counts return to the registers, and the lease ends. -/
def execLeaseFillData (crew : Nat) (lease : Nat) (s : State) : Out :=
  match (s.crew crew).lease lease with
  | none => .next s
  | some y =>
    if y.place != .filling then .next s
    else
      let put (s : State) (slots : Tab Slot) : State :=
        let s := s.endLoan crew lease y.lender
        let s := s.modCrew crew (fun c =>
          let c := (List.range (32 * y.count)).foldl (fun (c : Crew) j =>
            c.setSlot (y.first + j / 32) (j % 32) (Tab.get {} slots j)) c
          { (c.setLease lease none) with
            loads := c.loads - 1
            inFlight := c.inFlight.filter (fun r => decide (r < y.first) || decide (y.first + y.count ≤ r)) })
        (s.settleFences crew).checkEnd crew
      if y.lender.isSome then .next (put s y.slots)
      else
        match s.backing crew lease y false with
        | .ok v s => .next (put s (Lease.ofImage v y.count))
        | .wait s => .next (s.schedule 16 48 (.leaseFillData crew lease))
        | .lost s =>
          let s := s.modCrew crew (fun c => { (c.setLease lease (some { y with place := .lost })) with
            loads := c.loads - 1
            inFlight := c.inFlight.filter (fun r => decide (r < y.first) || decide (y.first + y.count ≤ r)) })
          .next ((s.settleFences crew).checkEnd crew)

/-- LEASE_REVOKE (R253). -/
def execLeaseRevoke (crew : Nat) (lease : Nat) (s : State) : Out :=
  match (s.crew crew).lease lease with
  | none => .next s
  | some y =>
    let put (s : State) (at_ : LeaseAt) : State :=
      (s.endLoan crew lease y.lender).modCrew crew (fun c => c.setLease lease (some { y with place := at_, lender := none, revoked := true }))
    match y.place with
    | .moving => .next (if y.lender.isSome then put s .moving else s)
    | .lender _ =>
      (match s.backing crew lease y true with
        | .ok _ s => .next (put s .backing)
        | .wait s => .next (s.schedule 16 48 (.leaseRevoke crew lease))
        | .lost s =>
          let (ok, s) := s.loseLease crew y
          .next (if ok then put s .lost else s.schedule 16 48 (.leaseRevoke crew lease)))
    | _ => .next s

end Sys2Proof.Machine
end

