-- ==== Sys2Proof/Machine/Remote.lean ====
section
/-! DEFINITION. Revoking an export (spec/16, R352), and what the host does to lines that the device or the host owns
(spec/17, R374, R375). -/

namespace Sys2Proof.Machine

/-! ## EXPORT_REVOKE (R352) -/

/-- Sectors of a range of a sett's memory that the directory lists in S. -/
def State.sharedIn (s : State) (sett base n : Nat) : List Nat :=
  (s.sett sett).dir.flatMap (fun p =>
    ((List.range 4).map (fun i => sett * 2 ^ 31 + p.1 * 4 + i)).filter (fun x =>
      p.2.sst[x % 4]?.getD 0 = 1 && decide (base < sectorAddr x + 64) && decide (sectorAddr x < base + n)))

/-- Acknowledgements of a range's sectors are still awaited. -/
def State.acksIn (s : State) (sett base n : Nat) : Bool :=
  (s.sett sett).collectors.any (fun p => match p.2 with
    | some k => k.sectors.any (fun x => decide (base < sectorAddr x + 64) && decide (sectorAddr x < base + n))
    | none => false)

/-- Invalidate the sharers of one sector, as a write does. -/
def State.invalidateShared (s : State) (x : Nat) : State :=
  match s.sendInvs x [x] none with
  | none => s
  | some s => s.setDir x (((s.dirOf x).withState (x % 4) 0).clearIdle)

/-- Importing entries of an export become stale: those of the package's setts here, those of other modules by a message over each link. -/
def State.staleImports (s : State) (sett entry : Nat) : State :=
  let names (w : Window) : Bool := w.st = 1 && w.handle / 2 ^ 52 = 0 && w.handle / 2 ^ 49 % 8 = sett && bits w.handle 48 40 = entry
  let stale (e : Nat × Window) : Nat × Window := if names e.2 then (e.1, { e.2 with st := 2 }) else e
  let mark (p : Nat × Sett) : Nat × Sett := (p.1, { p.2 with windows := p.2.windows.map stale })
  forEach ((List.range 18).filter (fun l => (s.link l).st != 0)) { s with setts := s.setts.map mark } (fun l t =>
    t.toLink sett l 14 (entry * 2 ^ 40) 0)

/-- EXPORT_REVOKE: sharers of the region's lines are invalidated; after the last acknowledgement the importing entries are
stale and the export entry is free. -/
def execExportRevoke (sett : Nat) (entry : Nat) (s : State) : Out :=
  let at_ := (s.sett sett).base 4 + 64 * entry
  let w := s.hbmRead sett at_ 64
  if (s.sett sett).base 4 = 0 || 512 ≤ entry || bits w 1 0 != 2 then .next s
  else
    let base := bits w 511 448
    let n := bits w 447 384
    let s := forEach (s.sharedIn sett base n) s (fun x t => t.invalidateShared x)
    if s.sharedIn sett base n != [] || s.acksIn sett base n then .next (s.schedule 1 47 (.exportRevoke sett entry))
    else
      let s := s.hbmWrite sett at_ 1 (w % 256 - w % 4)
      .next ((s.register sett at_ 1 none).staleImports sett entry)

/-! ## The host (R374, R375, R292) -/

/-- HOST_SNOOP: a line that a sett's fabric port owns goes back to the host. -/
def execHostSnoop (sett : Nat) (line : Nat) (s : State) : Out :=
  .next { s with portLines := s.portLines.filter (fun p => p != (sett, line)) }

/-- A sector that the host writes, under the stamp of agent 0: the cells of a keep-siblings page take the step of R288, a refused one is
reported (R292). `all` says that the host wrote every word; of a line given back, those that it did not change are no writes (log 120). A
sector of the fault buffer changes only as the fault unit takes the word of its res (R342, R343; log 104). -/
def State.hostSector (s : State) (sett addr data : Nat) (all : Bool) : State :=
  if (s.sett sett).inFaultBuffer addr then
    s.schedule 0 44 (.faultResStore sett ((addr - (s.sett sett).base 1) / 64) (bits data 191 128))
  else
  if !s.ksAt sett addr 64 then (s.hbmWrite sett addr 64 data).register sett addr 64 none
  else
  let (n, s) := s.agentStamp sett 0
  forEach (List.range 16) s (fun j t =>
    let a := addr + 4 * j
    let v := data / 2 ^ (32 * j) % 2 ^ 32
    if !all && t.hbmRead sett a 4 = v then t
    else
      let (r, t) := t.cellWrite sett a 0 (BitVec.ofNat 32 v) n [] none
      let t := t.register sett a 4 none
      if r = .full then t.report sett { kind := 0x0B, unit := 6, addr := a, info := v, stamp := n.word } else t)

/-- HOST_MEM_REQUEST (R375). Kind 0: MemRd with MetaValue Any, the Own of the host. Kind 1: MemWr, and kind 2: the data of a
BISnp response, both the Wb of the host; a MemWr to a sector that the host does not own is a write at the home. Bit 512 of the data is
CXL poison (log 128). A read of the context area gives zero and a write there is dropped (R382). -/
def execHostMemRequest (sett : Nat) (kind : Nat) (address : Nat) (data : Nat) (s : State) : Out :=
  let a := address / 64 * 64 % 2 ^ 37
  let x := sectorOf sett a
  let owned := s.owns 1 x && kind != 0
  let store (s : State) (all : Bool) : State :=
    ((s.hostSector sett a (data % 2 ^ 512) all).markPoison sett a 64 (data.testBit 512)).noteExport sett a 64
  -- from the Recall step of a quiesce on requests are held, but for the owner's answer to the recall; in suspension a read is served, a
  -- write has no effect (R435)
  if 4 ≤ s.hib.step && !owned then .next (s.schedule 64 homeKey (.hostMemRequest sett kind address (data % 2 ^ 513)))
  else if (s.sett sett).span = .suspension then .next (if kind = 0 then s.tellOwner 1 x 4 (s.ownerBytes 1 x) else s)
  else if kind = 0 then .next (s.schedule 0 homeKey (.own sett x 1))
  else if contextArea a then .next s
  else if owned then
    let s := store s false
    .next (s.schedule 0 homeKey (.wb sett x 1 (s.hbmRead sett a 64)))
  else if kind = 1 then
    let (ok, s) := s.dirWrite sett a 64 none
    if !ok then .next (s.schedule 1 homeKey (.hostMemRequest sett kind address (data % 2 ^ 513)))
    else .next ((store s true).llcTouch sett a 0 0)
  else .next s

end Sys2Proof.Machine
end

