-- ==== Sys2Proof/Machine/Engine.lean ====
section
/-! DEFINITION. The host's commands and registers (spec/17, R371, R372; spec/14, R310 to R313; spec/16, R351). -/

namespace Sys2Proof.Machine

/-! ## Command records (R372) -/

/-- Host address of the oldest command. -/
def Sett.commandAt (t : Sett) : Nat := t.cmdBase + 64 * (t.cmdHead % 2 ^ t.cmdSize)

def State.command (s : State) (sett : Nat) : Nat := s.hostRead (s.sett sett).commandAt 64

def comOp (c : Nat) : Nat := bits c 7 0
def comArg0 (c : Nat) : Nat := bits c 127 64
def comArg1 (c : Nat) : Nat := bits c 255 128
/-- The zero fields hold zero. -/
def comClean (c : Nat) : Bool := bits c 511 320 = 0 && bits c 63 40 = 0 && bits c 15 8 = 0

/-- The step that carries out an op. -/
def commandEvent (sett op : Nat) : Event :=
  match op with
  | 1 => .setbase sett
  | 2 => .refresh sett
  | 3 => .qstatus sett
  | 4 => .qresume sett
  | 5 => .import sett
  | 6 => .unimport sett
  | 0x10 => .hibernate sett
  | 0x11 => .wake sett
  | _ => .unknownOp sett

/-- The engine takes up the oldest command, one at a time. -/
def State.nextCommand (s : State) (sett : Nat) : State :=
  let t := s.sett sett
  if t.cmdBusy || t.cmdTail = t.cmdHead || !s.hostUp then s
  else (s.modSett sett (fun t => { t with cmdBusy := true })).schedule 1 62 (commandEvent sett (comOp (s.command sett)))

/-- A command ends: status and ret are written, CMDHEAD advances, vector 0 is raised. -/
def State.finishCommand (s : State) (sett status ret : Nat) : State :=
  let at_ := (s.sett sett).commandAt
  let s := (s.hostWrite (at_ + 4) 1 status).hostWrite (at_ + 32) 8 ret
  let s := s.modSett sett (fun t => { t with cmdHead := (t.cmdHead + 1) % 2 ^ 64, cmdBusy := false })
  (s.raise sett 0).nextCommand sett

/-- Status with which a command is turned away before its own checks: 4 where the sett is not authenticated (R451), 3 in
suspension but for QSTATUS (R434), 2 for a zero field that is not zero. -/
def State.commandBar (s : State) (sett : Nat) : Option Nat :=
  let t := s.sett sett
  let c := s.command sett
  if !t.authenticated then some 4
  else if t.span = .suspension && comOp c != 3 && comOp c != 0x10 && comOp c != 0x11 then some 3
  else if !comClean c then some 2
  else none

/-- A command's frame: nothing without a command, the bar, then its own step with its arguments. -/
def commandStep (sett : Nat) (body : Nat → Nat → Out) (s : State) : Out :=
  if !(s.sett sett).cmdBusy then .next s
  else match s.commandBar sett with
    | some status => .next (s.finishCommand sett status 0)
    | none => body (comArg0 (s.command sett)) (comArg1 (s.command sett))

/-- UNKNOWN_OP. -/
def execUnknownOp (sett : Nat) (s : State) : Out :=
  .next (if (s.sett sett).cmdBusy then s.finishCommand sett (if (s.sett sett).authenticated then 1 else 4) 0 else s)

/-- A value that SETBASE's selector takes (R331, R349, R372). -/
def baseOk (selector v : Nat) : Bool :=
  match selector with
  | 0 => v % 2 ^ 15 = 0 && decide (v < 2 ^ 37)
  | 1 => v % 64 = 0 && decide (v < 2 ^ 37)
  | 2 | 3 | 4 => v % 8 = 0 && decide (v < 2 ^ 37)
  | 5 => decide (v < 16384) || v = 0xFFFF
  | 6 => decide (v < 2 ^ 64)
  | 7 => v % 2 ^ 26 = 0 && decide (2 ^ 26 ≤ v) && decide (v ≤ 2 ^ 34)
  | 8 => decide (1 ≤ v) && decide (v ≤ 4095)
  | _ => false

/-- SETBASE: accepted in the start-up span only. -/
def execSetbase (sett : Nat) (s : State) : Out :=
  commandStep sett (fun a v =>
    if !baseOk a v then .next (s.finishCommand sett 2 0)
    else if (s.sett sett).span != .startUp then .next (s.finishCommand sett 3 0)
    else .next ((s.modSett sett (fun t => { t with setbase := Tab.set (setbaseDefault a) t.setbase a v })).finishCommand sett 0 0)) s

/-- Queues whose heads are looked at again. -/
def State.recheckQueues (s : State) (sett : Nat) (p : Nat → Bool) : State :=
  forEach ((s.enabledQueues sett).filter p) s (fun q t => t.schedule 1 80 (.cardHeadCheck sett q))

/-- REFRESH: the blocks of a subtree that the engine keeps are read again (R311). -/
def execRefresh (sett : Nat) (s : State) : Out :=
  commandStep sett (fun a v =>
    if a % 128 != 0 || v != 0 then .next (s.finishCommand sett 2 0)
    else
      let gone := ((s.sett sett).rcbs.map Prod.fst).filter (fun b => s.inSubtree sett a 8 b)
      let s := s.modSett sett (fun t => { t with rcbs := t.rcbs.filter (fun b => !gone.contains b.1) })
      let s := forEach gone s (fun b t => t.cacheRegion sett b)
      .next ((s.recheckQueues sett (fun _ => true)).finishCommand sett 0 0)) s

/-- QSTATUS. -/
def execQstatus (sett : Nat) (s : State) : Out :=
  commandStep sett (fun q v =>
    if 16384 ≤ q || v != 0 then .next (s.finishCommand sett 2 0)
    else
      let w := s.queueWord sett q
      .next (s.finishCommand sett 0 ((s.queue sett q).errCode + (if qErr w then 256 else 0) + (if qEn w then 512 else 0)))) s

/-- QRESUME. -/
def execQresume (sett : Nat) (s : State) : Out :=
  commandStep sett (fun q v =>
    if 16384 ≤ q || v != 0 then .next (s.finishCommand sett 2 0)
    else
      let a := queueAddr (s.sett sett) q
      let s := s.hbmWrite sett a 1 (putBits (s.hbmRead sett a 1) 1 1 0)
      let s := s.modQueue sett q (fun x => { x with errCode := 0 })
      .next ((s.schedule 1 80 (.cardHeadCheck sett q)).finishCommand sett 0 0)) s

/-- What an exporter answers to an import: size and rights r, p, a; none where it refuses (R351). An exporter beyond a link
answers from outside (log 20). -/
def State.exportAnswer (s : State) (handle link : Nat) : Option (Nat × Bool × Bool × Bool) × State :=
  let module := handle / 2 ^ 52
  if module = 0 then
    let q := handle / 2 ^ 49 % 8
    let base := (s.sett q).base 4
    let w := s.hbmRead q (base + 64 * bits handle 48 40) 64
    (if base = 0 || bits w 1 0 != 1 || bits w 319 304 != bits handle 39 24 then none
     else some (bits w 447 384, w.testBit 7, w.testBit 6, w.testBit 5), s)
  else if (s.link link).st = 1 && (s.link link).peer = module then
    let (d, s) := s.draw
    let x := (Config.remote d 0).toNat
    (if x % 2 = 1 then some ((bits x 40 16) * 2 ^ 16, x.testBit 1, x.testBit 2, x.testBit 3) else none, s)
  else (none, s)

/-- IMPORT (R351). -/
def execImport (sett : Nat) (s : State) : Out :=
  commandStep sett (fun handle v =>
    let w := v % 256
    let link := bits v 12 8
    if bits v 127 13 != 0 || 18 ≤ link || handle % 2 ^ 24 != 0 then .next (s.finishCommand sett 2 0)
    else
      match s.exportAnswer handle link with
      | (none, s) => .next ((s.modSett sett (fun t => { t with windows := Tab.set Window.init t.windows w Window.init })).finishCommand sett 4 0)
      | (some (size, r, p, a), s) =>
        let e : Window := { handle := handle, size := size, link := if handle / 2 ^ 52 = 0 then 0 else link, r := r, p := p, a := a, st := 1 }
        .next ((s.modSett sett (fun t => { t with windows := Tab.set Window.init t.windows w e })).finishCommand sett 0 0)) s

/-- UNIMPORT: the port stops translating through the window; what it has translated goes on. -/
def execUnimport (sett : Nat) (s : State) : Out :=
  commandStep sett (fun w v =>
    if 256 ≤ w || v != 0 then .next (s.finishCommand sett 2 0)
    else
      let s := s.modSett sett (fun t => { t with windows := Tab.modify Window.init t.windows w (fun e =>
        { e with st := 2, closing := true, closedAt := s.cycle }) })
      .next (s.schedule 1 63 (.unimportComplete sett w))) s

/-- An access through a window of a sett that the port has translated and that is not performed yet. -/
def State.usesWindow (s : State) (sett w : Nat) : Bool :=
  s.reqs.any (fun p => match p.2 with
    | none => false
    | some r => crewSett r.crew = sett && r.lanes.any (fun x => !x.done && (match x.target with
        | some t => t.window = some w
        | none => false)))

/-- UNIMPORT_COMPLETE: with the last such access the window is free and the command ends. -/
def execUnimportComplete (sett : Nat) (window : Nat) (s : State) : Out :=
  if !(windowOf (s.sett sett) window).closing then .next s
  else if s.usesWindow sett window then .next (s.schedule 1 63 (.unimportComplete sett window))
  else .next ((s.modSett sett (fun t => { t with windows := Tab.set Window.init t.windows window Window.init })).finishCommand sett 0 0)

/-! ## Registers (R371) -/

/-- A write to RETRYCNT clears the bits that are written as one. -/
def execRetrycntClear (sett : Nat) (value : Nat) (s : State) : Out :=
  .next (s.modSett sett (fun t => { t with retryCnt := (BitVec.ofNat 64 t.retryCnt &&& ~~~BitVec.ofNat 64 value).toNat }))

/-- Cards are taken in: not while a HIBERNATE quiesces or holds the module, and not in a sett that is not authenticated
(R435, R451). -/
def State.intake (s : State) (sett : Nat) : Bool :=
  s.hib.step = 0 && (s.sett sett).span != .suspension && (s.sett sett).authenticated

/-- QDB_DOORBELL (R313): the new tail, or error 2 for a queue fed by POST or a value beyond the depth. A closed queue takes
no card. -/
def execQdbDoorbell (sett : Nat) (queue : Nat) (value : Nat) (s : State) : Out :=
  let v := value % 2 ^ 32
  let w := s.queueWord sett queue
  if !s.intake sett || 16384 ≤ queue then .next s
  else if qSrc w || decide (16 < bits w 8 4) || decide (qDepth w < (v + 2 ^ 32 - qHead w) % 2 ^ 32) then
    .next (s.queueError sett queue 2)
  else if qClosed w then .next s
  else .next ((s.setTail sett queue v).schedule 1 80 (.cardHeadCheck sett queue))

/-- REGISTER_WRITE: a host write to BAR0. -/
def execRegisterWrite (sett : Nat) (offset : Nat) (value : Nat) (s : State) : Out :=
  let v := value % 2 ^ 64
  if offset = 0 then .next (s.modSett sett (fun t => { t with cmdBase := v / 64 * 64 }))
  else if offset = 8 then .next (if v ≤ 12 then s.modSett sett (fun t => { t with cmdSize := v }) else s)
  else if offset = 0x10 then .next ((s.modSett sett (fun t => { t with cmdTail := v })).nextCommand sett)
  else if offset = 0x20 then execRetrycntClear sett v s
  else if 0x100000 ≤ offset && offset < 0x120000 && offset % 8 = 0 then execQdbDoorbell sett ((offset - 0x100000) / 8) v s
  else .next s

end Sys2Proof.Machine
end

