-- ==== Sys2Proof/Machine/Gangs.lean ====
section
/-! DEFINITION. Launches and gangs (spec/14, R318 to R328): heads, starts, clusters, placement, the ends of crews, gangs and
launches. -/

namespace Sys2Proof.Machine

/-! ## Stages and clusters (R323) -/

def Sett.cluster (t : Sett) (v : Nat) : Cluster := Tab.get Cluster.init t.clusters v
def State.modCluster (s : State) (sett v : Nat) (f : Cluster → Cluster) : State :=
  s.modSett sett (fun t => { t with clusters := Tab.modify Cluster.init t.clusters v f })

/-- Clusters that a stage holds, leaving ones too. -/
def Sett.holds (t : Sett) (q : Nat) : List Nat := (List.range 32).filter (fun v => (t.cluster v).holder = some q)

/-- Clusters on which a stage may place gangs. -/
def Sett.heldBy (t : Sett) (q : Nat) : List Nat :=
  (List.range 32).filter (fun v => (t.cluster v).holder = some q && !(t.cluster v).leaving)

/-- A placed gang of a stage stands on a cluster. -/
def Sett.standsOn (t : Sett) (q v : Nat) : Bool :=
  t.records.any (fun p => p.2.st = .placed && p.2.queue = q && p.2.vclus = v)

/-- Leaving clusters whose last gang has ended become free (R323). -/
def State.settleClusters (s : State) (sett : Nat) : State :=
  let t := s.sett sett
  let gone := (List.range 32).filter (fun v => (t.cluster v).leaving && (match (t.cluster v).holder with
    | some q => !t.standsOn q v
    | none => true))
  forEach gone s (fun v u => u.modCluster sett v (fun _ => Cluster.init))

/-- Enabled queues of the same pipeline as queue q: same region block and pipeline number. -/
def State.pipeline (s : State) (sett q : Nat) : List Nat :=
  let w := s.queueWord sett q
  (s.enabledQueues sett).filter (fun n => let x := s.queueWord sett n
                                          qRcb x = qRcb w && qPipe x = qPipe w)

/-! ## Budgets (R311) -/

/-- What a subtree uses: clusters, store arrays, tile arrays, queues. -/
def State.usage (s : State) (sett root : Nat) : Nat × Nat × Nat × Nat :=
  let t := s.sett sett
  let gangs := t.records.filter (fun p => p.2.st = .placed && s.inSubtree sett root 8 p.2.rcb)
  let qs := t.queues.filter (fun p => p.2.admitted && s.inSubtree sett root 8 (qRcb (s.queueWord sett p.1)))
  let vs := t.clusters.filter (fun p => match p.2.holder with
    | some q => s.inSubtree sett root 8 (qRcb (s.queueWord sett q))
    | none => false)
  (vs.length, gangs.foldl (fun n p => n + cBlocks p.2.card * kStore p.2.kdesc) 0,
   gangs.foldl (fun n p => n + cBlocks p.2.card * kArrays p.2.kdesc) 0, qs.length)

/-- Every budget holds for a region and its ancestors after an addition. -/
def State.budgetOk (s : State) (sett rcb clusters store arrays queues : Nat) : Bool :=
  (s.rcbChain sett 9 rcb).all (fun b =>
    match s.region sett b.1 with
    | none => false
    | some r =>
      let (c, m, a, q) := s.usage sett b.1
      decide (c + clusters ≤ r.clusters) && decide (m + store ≤ r.store) && decide (a + arrays ≤ r.arrays) &&
      decide (q + queues ≤ r.queues))

/-! ## Heads and starts (R310, R316, R318, R320, R324) -/

/-- The lead allowance holds a queue's next card (R324). -/
def State.leadHolds (s : State) (sett q : Nat) : Bool :=
  let w := s.queueWord sett q
  qLead w != 0 && (s.pipeline sett q).any (fun n =>
    let x := s.queueWord sett n
    let d := (qDone w + 2 ^ 32 - qDone x) % 2 ^ 32
    (qStage x = qStage w + 1 || qStage w = qStage x + 1) && !qClosed x && decide (qLead w ≤ d) && decide (d < 2 ^ 31))

/-- Completion of launches whose gangs have all ended (R322): their writes are performed and complete at every sharer, then 1 is added to sig and to done of
the queue. Where none remains, the device generation steps (R320). -/
def State.completeLaunches (s : State) (sett : Nat) : State :=
  let ready := (s.sett sett).launches.filter (fun l =>
    l.ended = l.gangs && l.placed = l.gangs && !l.failed)
  forEach ready s (fun l s =>
    let again (s : State) (d : Nat) : State :=
      if s.agenda.any (fun t => t.ev = .cardHeadCheck sett l.queue) then s else s.schedule d 80 (.cardHeadCheck sett l.queue)
    if l.puts.any (fun id => (s.req id).isSome) then again s 1 else
    let finish (s : State) : State :=
      let w := s.queueWord sett l.queue
      let s := (s.setDone sett l.queue (qDone w + 1)).settleCode l.index
      let s := s.modSett sett (fun t => { t with launches := t.launches.filter (fun x => x.index != l.index) })
      let s := if (s.sett sett).launches = [] then s.devgenStep sett else s
      ((s.schedule 0 79 (.dependencePoll sett)).roomGained sett).kick sett
    let a := cSig l.card
    if a = 0 then finish s
    else match s.engineTarget sett a 8 .atomic with
      | .ok t =>
        (match t.place with
          | .hbm q p =>
            let (ok, s) := s.homeAdd q p 1 t.key
            if ok then finish s else again s 1
          | .remote w o => finish (s.toWindow sett w o 2 8 0 1)
          | _ => finish (s.memWrite t 8 ((s.memRead t 8).1 + 1) none))
      | _ => again (s.engineFault sett a .atomic) 256)

/-- DEPENDENCE_POLL (R318): every queue's head is looked at; the next poll comes 4,096 fabric cycles on. -/
def execDependencePoll (sett : Nat) (s : State) : Out :=
  let s := forEach (s.enabledQueues sett) s (fun q t => t.schedule 0 80 (.cardHeadCheck sett q))
  .next (if s.agenda.any (fun t => t.ev = .dependencePoll sett) then s else s.schedule (fabric 4096) 79 (.dependencePoll sett))

/-- The dependence counter of a card lets it start; none where the engine cannot read it. -/
def State.dependenceMet (s : State) (sett c : Nat) : Option Bool :=
  if cWait c = 0 then some true else (s.engineRead sett (cWait c) 8).map (fun v => decide (cVal c ≤ v))

/-- CARD_HEAD_CHECK (R310, R311, R316, R318): the queue's enabling is admitted, its head card is checked, and the card's
dependence counter is read; a card that nothing holds starts. A reserved ldepth is error 1 here and error 2 at a doorbell (log 124). -/
def execCardHeadCheck (sett : Nat) (queue : Nat) (s : State) : Out :=
  let s := s.completeLaunches sett
  let w := s.queueWord sett queue
  if !qEn w then .next ((if (s.sett sett).genHold = some queue then s.modSett sett (fun t => { t with genHold := none }) else s).modQueue sett queue (fun x => { x with admitted := false, checked := false, dep := false }))
  else if qErr w || !s.intake sett then .next s
  else
    let enabling : Option State :=
      if (s.queue sett queue).admitted then some s
      else match s.region sett (qRcb w) with
        | none => none
        | some _ =>
          if 16 < bits w 8 4 then none
          else
            let s := s.cacheRegion sett (qRcb w)
            some (if s.budgetOk sett (qRcb w) 0 0 0 1 then s.modQueue sett queue (fun x => { x with admitted := true }) else s)
    match enabling with
    | none => .next (s.queueError sett queue 1)
    | some s =>
      let x := s.queue sett queue
      if !x.admitted || x.launch.isSome || qUsed w = 0 then .next s
      else
        let c := s.physRead sett (cardAddr w (qHead w)) 64
        let start (s : State) : State :=
          match s.dependenceMet sett c with
          | none => s.engineFault sett (cWait c) .read
          | some d =>
            let s := s.modQueue sett queue (fun y => { y with dep := d })
            if d then s.schedule 0 82 (.cardStart sett queue) else s
        if x.checked then .next (start s)
        else if !cardOk c queue then .next (s.queueError sett queue 3)
        else match s.engineRead sett (cKdesc c) 64 with
          | none => .next (s.engineFault sett (cKdesc c) .read)
          | some k =>
            if !kdescOk k then .next (s.queueError sett queue 3)
            else .next (start (s.modQueue sett queue (fun y => { y with checked := true })))

/-- head advances: the card's last gang is placed (R318). -/
def State.advanceHead (s : State) (sett q : Nat) : State :=
  let w := s.queueWord sett q
  let s := (s.setHead sett q (qHead w + 1)).modQueue sett q (fun x => { x with launch := none, checked := false, dep := false })
  (s.schedule 1 80 (.cardHeadCheck sett q)).roomGained sett

/-! ## The tables of system software (R355, R379) -/

def loadGroup (w : Nat) : GroupEntry :=
  { ranks := bits w 127 64, attempt := bits w 63 48, me := bits w 47 36, n := bits w 35 24, v := w.testBit 0 }

def loadArea (w : Nat) : Area :=
  { base := bits w 255 192, size := bits w 191 128, next := bits w 127 64, members := bits w 15 8, seqr := bits w 7 5, v := w.testBit 0 }

/-- System software has built the sett's group table and its replica area table by the time its service begins; no command writes them,
and what they hold is free (log 61). -/
def State.softTables (s : State) (q : Nat) : State :=
  let group (t : Tab GroupEntry) (i : Nat) : Tab GroupEntry :=
    let x := loadGroup (Config.groupTable q i).toNat
    if !x.v then t
    else
      let n := 1 + x.n % 4095
      Tab.modify GroupEntry.init t i (fun y =>
        { y with ranks := x.ranks % 2 ^ 37, me := x.me % (n + 1), n := n, v := true })
  let area (t : Tab Area) (i : Nat) : Tab Area :=
    let x := loadArea (Config.areaTable i).toNat
    let members := (List.range 8).filter (fun m => x.members.testBit m)
    if !x.v || members.length < 2 || !members.contains q || !x.members.testBit x.seqr then t
    else
      let next := members.foldl (fun n m => max n (Tab.get Area.init (s.sett m).areas i).next) 0
      Tab.set Area.init t i { x with base := (Config.areaBase q i).toNat % 2 ^ 21 * 2 ^ 16, size := x.size % 2 ^ 21 * 2 ^ 16, next := next, pending := [] }
  s.modSett q (fun t => { t with groups := (List.range 256).foldl group t.groups, areas := (List.range 64).foldl area t.areas })

/-- A card becomes a running launch (R318, R320, R322). -/
def State.startCard (s : State) (sett q c k : Nat) (r : Region) : State :=
  let s := if cGen c then (s.devgenStep sett).schedule 0 79 (.dependencePoll sett) else s
  let s := if (s.sett sett).span = .startUp then s.softTables sett else s
  let t := s.sett sett
  let l : Launch :=
    { card := c, queue := q, gangs := cGangs c, placed := 0, ended := 0, failed := false, started := s.cycle, index := t.nextLaunch,
      rcb := qRcb (s.queueWord sett q), region := r, kdesc := k, at_ := qHead (s.queueWord sett q) }
  let s := s.modSett sett (fun t => { t with
    launches := t.launches ++ [l], nextLaunch := t.nextLaunch + 1, genHold := none
    span := if t.span = .startUp then .service else t.span, maintenance := false, gateTest := false })
  let s := s.modQueue sett q (fun x => { x with launch := some l.index, since := s.cycle })
  if l.gangs = 0 then (s.advanceHead sett q).completeLaunches sett else s.kick sett

/-- CARD_START (R318, R320, R324). A GEN barrier holds every other start back from the point where only it has to wait. -/
def execCardStart (sett : Nat) (queue : Nat) (s : State) : Out :=
  let x := s.queue sett queue
  let w := s.queueWord sett queue
  let t := s.sett sett
  if !qEn w || qErr w || !s.intake sett || !x.admitted || !x.checked || !x.dep || x.launch.isSome || qUsed w = 0 then .next s
  else if s.leadHolds sett queue then .next s
  else if t.genHold.isSome && t.genHold != some queue then .next s
  else
    let c := s.physRead sett (cardAddr w (qHead w)) 64
    if cGen c && t.launches != [] then .next (s.modSett sett (fun t => { t with genHold := some queue }))
    else
      match s.engineRead sett (cKdesc c) 64, s.region sett (qRcb w) with
      | some k, some r => .next (s.startCard sett queue c k r)
      | none, _ => .next (s.engineFault sett (cKdesc c) .read)
      | _, none => .next (s.queueError sett queue 1)

/-! ## Room (R327) -/

/-- Arrays of a core that a block may take: `leased` counts leases as free; a core without blocks takes the block's L1
partition (R236, R237). -/
def State.arraysFor (s : State) (g l1 : Nat) (leased : Bool) : Nat :=
  let c := s.core g
  if s.blocksOn g = [] then
    if leased then 128 - (4 * l1 + c.retired)
    else if c.lent != [] && c.l1Size != 64 * l1 then 0
    else 128 - (4 * l1 + c.retired + c.lent.length)
  else s.freeArrays g + (if leased then c.lent.length else 0)

/-- A core has room for a block of kernel descriptor k. -/
def State.hasRoom (s : State) (k g : Nat) : Bool :=
  let bs := s.blocksOn g
  decide (kStore k + kArrays k ≤ s.arraysFor g (kL1 k) true) && decide (bs.length < 16) &&
  decide (bs.foldl (fun n b => n + (s.block b).crews) 0 + kCrews k ≤ 64) &&
  decide (bs.foldl (fun n b => n + (s.block b).accum) 0 + kAccum k ≤ 3072) &&
  ((s.core g).l1Size = 64 * kL1 k || bs = []) && !(s.core g).fenced

/-- Cores of virtual cluster v of a sett. -/
def coresOf (sett v : Nat) : List Nat := (List.range 4).map (fun i => 128 * sett + 4 * v + i)

/-- Where a gang goes: the lowest-numbered cluster that its stage holds with enough cores with room (R327). -/
def State.siteFor (s : State) (sett q card k : Nat) : Option (Nat × List Nat) :=
  ((s.sett sett).heldBy q).findSome? (fun v =>
    let cs := (coresOf sett v).filter (s.hasRoom k)
    if cBlocks card ≤ cs.length then some (v, cs.take (cBlocks card)) else none)

/-! ## Candidates (R326) -/

/-- A gang that waits for placement. -/
structure Cand where
  prio : Nat
  swapped : Bool
  started : Nat
  queue : Nat
  /-- its record, where it has one -/
  gangRec : Option Nat
  launch : Launch
  /-- cycle from which it waits -/
  since : Nat

/-- Region priority raised by 1 for each full 2^20 cycles, up to 7. -/
def effective (prio waited : Nat) : Nat := min 7 (prio + waited / 2 ^ 20)

def State.launchIn (s : State) (sett i : Nat) : Option Launch := (s.sett sett).launches.find? (fun l => l.index = i)

/-- The candidates of a sett, room or not. -/
def State.candidates (s : State) (sett : Nat) : List Cand :=
  let t := s.sett sett
  let back := t.records.filterMap (fun p =>
    if p.2.st = .swapped || p.2.st = .awaiting then
      (s.launchIn sett p.2.launch).map (fun l =>
        { prio := effective p.2.prio (s.cycle - p.2.waitFrom), swapped := p.2.st = .swapped, started := l.started, queue := p.2.queue,
          gangRec := some p.1, launch := l, since := p.2.waitFrom })
    else none)
  let new := t.queues.filterMap (fun p => (p.2.launch.bind (s.launchIn sett)).map (fun l =>
    { prio := effective l.region.prio (s.cycle - p.2.since), swapped := false, started := l.started, queue := p.1, gangRec := none, launch := l,
      since := p.2.since }))
  back ++ new

/-- Candidate a is taken before candidate b. -/
def Cand.before (a b : Cand) : Bool :=
  if a.prio != b.prio then decide (b.prio < a.prio)
  else if a.queue = b.queue && a.swapped != b.swapped then a.swapped
  else if a.started != b.started then decide (a.started < b.started)
  else if a.queue != b.queue then decide (a.queue < b.queue)
  else decide (a.gangRec.getD 2048 < b.gangRec.getD 2048)

def firstCand (l : List Cand) : Option Cand :=
  l.foldl (fun best c => match best with
    | none => some c
    | some b => if c.before b then some c else some b) none

/-- Lowest-numbered free launch record of the 2,048 (R319). -/
def Sett.freeRecord (t : Sett) : Option Nat :=
  (List.range (min 2048 (t.records.length + 1))).find? (fun r => (Tab.get LaunchRec.init t.records r).st = .free)

/-- Where a candidate can go now: room, a record, and every budget. -/
def State.place? (s : State) (sett : Nat) (c : Cand) : Option (Nat × List Nat) :=
  let l := c.launch
  if (c.gangRec.isNone && (s.sett sett).freeRecord.isNone) ||
      !s.budgetOk sett l.rcb 0 (cBlocks l.card * kStore l.kdesc) (cBlocks l.card * kArrays l.kdesc) 0 then none
  else s.siteFor sett c.queue l.card l.kdesc

/-! ## Placement (R319, R321, R327, R391) -/

/-- The L1 partition of a core without blocks takes another size: its registered words are performed, its lines leave
(R237). -/
def State.resizeL1 (s : State) (g l1 : Nat) : State :=
  if (s.core g).l1Size = 64 * l1 then s
  else
    let s := forEach ((s.core g).l1.map L1Line.line) s (fun n t => t.l1Evict g n)
    s.modCore g (fun c => { c with l1Size := 64 * l1, l1 := [] })

/-- A block's place on a core; its arrays are clear 32 cycles on (R238), and a gated core wakes (R262). -/
def State.placeBlock (s : State) (sett r bid g k : Nat) : State :=
  let s := s.resizeL1 g (kL1 k)
  let s := s.setBlock (blockKey sett r bid)
    { live := true, ended := false, sett := sett, gangRec := r, bid := bid, core := g, regs := kRegs k, crews := kCrews k, scratch := kScratch k,
      arrays := kArrays k, accum := kAccum k, l1 := kL1 k, readyAt := s.cycle + 32 }
  s.wakeCore g

/-- A crew as it starts (R321): parameter words in registers 0 to 5, everything else 0, every thread at the entry. -/
def freshCrew (key core idx card k devgen ganggen : Nat) : Crew :=
  let regs : Tab Slot := (List.range 6).foldl (fun (t : Tab Slot) j => (List.range 32).foldl (fun (t : Tab Slot) l =>
    Tab.set {} t (32 * j + l) { val := BitVec.ofNat 32 (card / 2 ^ (320 + 32 * j)) }) t) []
  { live := true, core := core, block := crewBlock key, idx := idx, nregs := kRegs k, regs := regs
    threads := (List.range 32).map (fun l => (l, { pc := BitVec.ofNat 64 (kEntry k), st := .ready }))
    frontier := { devgen := devgen, ganggen := ganggen, pairs := [] } }

/-- Leases that stand in the way of a placement are revoked, of those that a lender holds the oldest first (DESIGN CHOICE, log 112);
true where there were any (R253). -/
def State.revokeFor (s : State) (k : Nat) (cores : List Nat) : Bool × State :=
  cores.foldl (fun (acc : Bool × State) g =>
    let s := acc.2
    let need := kStore k + kArrays k
    let have_ := s.arraysFor g (kL1 k) false
    if need ≤ have_ then acc
    else
      let c := s.core g
      let n := if s.blocksOn g = [] && c.l1Size != 64 * kL1 k then c.lent.length else need - have_
      (true, forEach (c.lent.take n) s (fun p t =>
        if t.agenda.any (fun e => e.ev = .leaseRevoke p.1 p.2) then t else t.schedule 0 48 (.leaseRevoke p.1 p.2)))) (false, s)

/-- The record of a gang as it is placed. -/
def LaunchRec.placedAs (x : LaunchRec) (c : Cand) (i v now : Nat) (cores : List Nat) : LaunchRec :=
  let l := c.launch
  let mask := cores.foldl (fun m g => m ||| 2 ^ (g % 4)) 0
  if c.gangRec.isSome then
    { x with st := .placed, vclus := v, cores := mask, placedAt := now, runFrom := now
             firstAt := if c.swapped then x.firstAt else now, ran := if c.swapped then x.ran else 0 }
  else
    { card := l.card, spill := if l.region.slots ≤ i then 0 else l.region.spill + 2228224 * i,
      gang := l.placed, ganggen := if x.reuse then min 255 (x.ganggen + 1) else x.ganggen, gbar := kGbar l.kdesc, vclus := v,
      cores := mask, st := .placed, launch := l.index, queue := c.queue, kdesc := l.kdesc, handler := l.region.handler,
      prio := l.region.prio, relaunch := l.region.relaunch, kill := l.region.kill, th1 := l.region.th1, th2 := l.region.th2,
      xlate := l.region.xlate, rcb := l.rcb, placedAt := now, firstAt := now, runFrom := now }

/-- Bytes of a block section of a context image without its sequencer operations (R388). -/
def sectionBytes (k : Nat) : Nat :=
  128 + 32768 * kCrews k + 140 * (kCrews k * kRegs k) + padBytes (kScratch k) + (16384 + 640) * kArrays k + 256 * kAccum k

/-- Place a gang: its record, its blocks and its crews. A swapped-out gang's blocks are loaded from its image first. -/
def State.placeGang (s : State) (sett : Nat) (c : Cand) (v : Nat) (cores : List Nat) : State :=
  let k := c.launch.kdesc
  let i := (c.gangRec.orElse (fun _ => (s.sett sett).freeRecord)).getD 0
  let s := s.modRecord sett i (fun x => x.placedAs c i v s.cycle cores)
  let x := s.record sett i
  let s := forEach (cores.zip (List.range cores.length)) s (fun p t => t.placeBlock sett i p.2 p.1 k)
  let s := s.modCluster sett v (fun y => { y with used := s.cycle })
  let keys := (cores.zip (List.range cores.length)).flatMap (fun p =>
    (List.range (kCrews k)).map (fun j => (p.1, blockKey sett i p.2, j)))
  let fresh (s : State) : State := forEach keys s (fun p t =>
    t.setCrew (crewKey p.2.1 p.2.2) (freshCrew (crewKey p.2.1 p.2.2) p.1 p.2.2 x.card k (s.sett sett).devgen x.ganggen))
  if c.swapped then
    let s := s.modRecord sett i (fun y => { y with restoring := cores.length })
    forEach (cores.zip (List.range cores.length)) s (fun p t =>
      let b := blockKey sett i p.2
      let size := sectionBytes k
      (t.modBlock b (fun y => { y with readyAt := 2 ^ 64 })).schedule (32 + (size + 63) / 64) 84 (.swapInRestoreDone b))
  else
    let s := fresh s
    if c.gangRec.isSome then
      if x.recov then s.schedule x.catch_ 85 (.relaunchCatchupEnd sett i) else s
    else
      let s := s.modSett sett (fun t => { t with launches := t.launches.map (fun l =>
        if l.index = c.launch.index then { l with placed := l.placed + 1 } else l) })
      let s := s.modQueue sett c.queue (fun y => { y with since := s.cycle })
      if c.launch.placed + 1 = c.launch.gangs then s.advanceHead sett c.queue else s

/-- Cycle in which a waiting candidate may call for a swap-out (R328). -/
def Cand.swapDue (c : Cand) : Nat := c.since + 2 ^ 16

/-- A candidate waits for room (R328); a budget or a launch record that it waits for is no want of room. -/
def State.wantsRoom (s : State) (sett : Nat) (c : Cand) : Bool := (s.siteFor sett c.queue c.launch.card c.launch.kdesc).isNone

/-- The next step of a candidate's ageing (R326), and the cycle in which one may call for a swap-out (R328), are events of the
sett. -/
def State.armWaits (s : State) (sett : Nat) : State :=
  let cs := s.candidates sett
  let s := s.unschedule (fun e => e = .priorityAgeing sett || e = .swapOutDecision sett)
  let first (l : List Nat) : Option Nat := l.foldl (fun m n => match m with | none => some n | some b => some (min b n)) none
  let s := match first (cs.map (fun c => 2 ^ 20 - (s.cycle - c.since) % 2 ^ 20)) with
    | some n => s.schedule n 83 (.priorityAgeing sett)
    | none => s
  match first ((cs.filter (s.wantsRoom sett)).map (fun c => c.swapDue - s.cycle)) with
  | some n => s.schedule n 86 (.swapOutDecision sett)
  | none => s

/-- GANG_PLACEMENT (R326): the first candidate that has room is placed; one whose cores still lend arrays waits for them. -/
def execGangPlacement (sett : Nat) (s : State) : Out :=
  let s := s.settleClusters sett
  if s.hib.step != 0 || (s.sett sett).span = .suspension then .next s
  else
    let cs := s.candidates sett
    let fit := cs.filter (fun c => (s.place? sett c).isSome)
    match firstCand fit with
    | some c =>
      (match s.place? sett c with
        | some (v, cores) =>
          let (revoking, s) := s.revokeFor c.launch.kdesc cores
          .next ((if revoking then s else s.placeGang sett c v cores).kick sett)
        | none => .next s)
    | none => .next (s.armWaits sett)

/-- PRIORITY_AGEING (R326): a candidate gains a step at each full 2^20 cycles of waiting; the choice is made anew. -/
def execPriorityAgeing (sett : Nat) (s : State) : Out := .next (s.kick sett)

/-! ## Swap-out decisions (R328) -/

/-- The gang that a candidate takes the place of: region priority below p on a cluster that its stage holds; the lowest
priority, then the latest placed, then the higher record. -/
def State.victimFor (s : State) (sett : Nat) (c : Cand) : Option Nat :=
  let t := s.sett sett
  let vs := t.heldBy c.queue
  let on := t.records.filter (fun p => p.2.st = .placed && p.2.restoring = 0 && decide (p.2.prio < c.prio) && vs.contains p.2.vclus &&
    !t.swaps.any (fun w => w.gangRec = p.1))
  (on.foldl (fun (best : Option (Nat × LaunchRec)) p => match best with
    | none => some p
    | some b =>
      if p.2.prio != b.2.prio then (if p.2.prio < b.2.prio then some p else some b)
      else if p.2.placedAt != b.2.placedAt then (if b.2.placedAt < p.2.placedAt then some p else some b)
      else if b.1 < p.1 then some p else some b) none).map Prod.fst

/-- Units of 64 KiB. -/
def units (n : Nat) : Nat := (n + 65535) / 65536 * 65536

/-- Bytes of a gang's context image (R387): header, then block sections, each at a 64 KiB boundary, with room for every
operation of the block (R390). -/
def State.imageBytes (s : State) (sett r : Nat) : Nat :=
  let x := s.record sett r
  let ops (b : Nat) : Nat := ((s.core (s.block b).core).seq.filter (fun o => crewBlock o.crew = b && o.home = o.core)).foldl
    (fun n o => n + 256 + (if o.form = 3 then (o.gather.length * 2 + 63) / 64 * 64 + (o.scatter.length * 2 + 63) / 64 * 64 else 0)) 0
  65536 + (s.gangBlocks sett r).foldl (fun n b => n + units (sectionBytes x.kdesc + ops b)) 0

/-- Lowest free address of the context area that takes n bytes (R382). -/
def Sett.contextRoom (t : Sett) (n : Nat) : Option Nat :=
  let size := units n
  let free (a : Nat) : Bool := decide (a + size ≤ 2 ^ 37) &&
    t.contexts.all (fun c => decide (a + size ≤ c.1) || decide (c.1 + units c.2 ≤ a))
  ((0x1C00000000 :: t.contexts.map (fun c => c.1 + units c.2)).filter free).foldl (fun m a => match m with
    | none => some a
    | some b => some (min a b)) none

/-- Begin to swap a gang out, where its image fits (R382, R383). -/
def State.beginSwap (s : State) (sett r : Nat) (candidate : Option Nat) : State :=
  let n := s.imageBytes sett r
  match (s.sett sett).contextRoom n with
  | none => s
  | some a =>
    let w : Swap := { gangRec := r, step := .stop, started := s.cycle, image := a, size := n, candidate := candidate }
    let s := s.modSett sett (fun t => { t with swaps := t.swaps ++ [w], contexts := t.contexts ++ [(a, n)] })
    (s.modRecord sett r (fun x => { x with image := a })).schedule 0 87 (.swapOutStop sett r)

def Cand.name (c : Cand) : Nat := match c.gangRec with | some r => 16384 + r | none => c.queue

/-- SWAP_OUT_DECISION (R328): a candidate that has waited 2^16 cycles without room has one gang swapped out. -/
def execSwapOutDecision (sett : Nat) (s : State) : Out :=
  if s.hib.step != 0 then .next s
  else
    let order := sortBy (fun a b => a.before b) ((s.candidates sett).filter (s.wantsRoom sett))
    .next (forEach order s (fun c s =>
      if s.cycle < c.swapDue || (s.sett sett).swaps.any (fun w => w.candidate = some c.name) then s
      else match s.victimFor sett c with
        | some r => s.beginSwap sett r (some c.name)
        | none => s))

/-! ## CLUSTER_REALLOCATION (R323) -/

/-- Demand of a stage as a fraction: occupancy over held clusters plus one. -/
def State.demand (s : State) (sett q : Nat) : Nat × Nat :=
  (qUsed (s.queueWord sett q), ((s.sett sett).holds q).length + 1)

/-- The next stage's queue is full. -/
def State.nextFull (s : State) (sett q : Nat) : Bool :=
  let w := s.queueWord sett q
  (s.pipeline sett q).any (fun n => let x := s.queueWord sett n
                                    qStage x = qStage w + 1 && decide (qDepth x ≤ qUsed x))

/-- Stages that may be granted a cluster, best first: demand, then region priority, then queue number. -/
def State.grantee (s : State) (sett : Nat) : Option Nat :=
  let prio (q : Nat) : Nat := match s.region sett (qRcb (s.queueWord sett q)) with | some r => r.prio | none => 0
  let qs := (s.enabledQueues sett).filter (fun q =>
    let w := s.queueWord sett q
    (s.queue sett q).admitted && qUsed w != 0 && !s.nextFull sett q && s.budgetOk sett (qRcb w) 1 0 0 0)
  qs.foldl (fun (best : Option Nat) q => match best with
    | none => some q
    | some b =>
      let (n, d) := s.demand sett q
      let (m, e) := s.demand sett b
      if n * e != m * d then (if m * d < n * e then some q else some b)
      else if prio b < prio q then some q else some b) none

/-- The cluster that a move marks leaving: of a stage that holds two or more and has less than a quarter of its pipeline's largest
demand, the highest-numbered one. -/
def State.moveFrom (s : State) (sett : Nat) : Option Nat :=
  (s.enabledQueues sett).findSome? (fun q =>
    let hs := (s.sett sett).holds q
    let (n, d) := s.demand sett q
    if 2 ≤ hs.length && (s.pipeline sett q).any (fun p => let (m, e) := s.demand sett p
                                                          decide (4 * n * e < m * d)) then hs.getLast? else none)

/-- CLUSTER_REALLOCATION: at most one release, one grant and one move in each 65,536 cycles. -/
def execClusterReallocation (sett : Nat) (s : State) : Out :=
  if (s.sett sett).span = .suspension then .next (s.schedule 65536 88 (.clusterReallocation sett))
  else
  let s := s.settleClusters sett
  let since := (s.sett sett).lastRealloc
  let t := s.sett sett
  let idle := (List.range 32).find? (fun v => match (t.cluster v).holder with
    | some q => qUsed (s.queueWord sett q) = 0 && !t.standsOn q v && decide ((t.cluster v).used ≤ since)
    | none => false)
  let s := match idle with
    | some v => s.modCluster sett v (fun _ => Cluster.init)
    | none => s
  let free (s : State) : Option Nat := (List.range 32).find? (fun v => ((s.sett sett).cluster v).holder.isNone)
  let s := match free s, s.grantee sett with
    | some v, some q => s.modCluster sett v (fun _ => { holder := some q, leaving := false, used := s.cycle })
    | _, _ => s
  let s := match free s with
    | some _ => s
    | none => match s.moveFrom sett with
      | some v => (s.modCluster sett v (fun c => { c with leaving := true })).settleClusters sett
      | none => s
  let s := s.modSett sett (fun t => { t with lastRealloc := s.cycle })
  .next ((s.schedule 65536 88 (.clusterReallocation sett)).kick sett)

/-! ## Ends (R177, R321, R322) -/

/-- A gang ends: its arrays and its record are free, its launch counts it. -/
def State.endGang (s : State) (sett r : Nat) : State :=
  let x := s.record sett r
  let ks := recordCrews sett r
  let puts := (s.reqs.filter (fun p => match p.2 with
    | some q => (q.phase = 2 || q.phase = 3) && ks.contains q.crew
    | none => false)).map Prod.fst
  let s := s.modSett sett (fun t => { t with launches := t.launches.map (fun l =>
    if l.index = x.launch then { l with puts := l.puts ++ puts } else l) })
  let s := ((s.clearGang sett r).modRecord sett r LaunchRec.freed).settleClusters sett
  let (all, s) := s.gangEnded sett x.launch false
  let s := if all then s.completeLaunches sett else s
  (s.roomGained sett).kick sett

/-- CREW_END (R177): a crew whose threads have exited and whose counters stand at 0 ends; with the last one its block ends and
returns its arrays (R236), and with the last block its gang. -/
def execCrewEnd (crew : Nat) (s : State) : Out :=
  let c := s.crew crew
  if !c.finished || c.stopped then .next s
  else
    let s := s.leaveActive crew
    let s := forEach c.leases s (fun p t => match p.2 with
      | some y => t.endLoan crew p.1 y.lender
      | none => t)
    let s := forEach c.syms s (fun y t => t.setReq y.req none)
    let s := s.setCrew crew Crew.init
    let sett := crewSett crew
    let r := crewRec crew
    let b := crewBlock crew
    .next (if s.gangCrews sett r = [] then s.endGang sett r
      else if (List.range 32).any (fun i => (s.crew (crewKey b i)).live) then s
      else (s.modBlock b (fun x => { x with ended := true })).kick sett)

/-- RELAUNCH_CATCHUP_END (R428): a relaunched gang has run for its catch-up; its recovery span ends, and with it its gate-timing
bit. -/
def execRelaunchCatchupEnd (sett : Nat) (record : Nat) (s : State) : Out :=
  let x := s.record sett record
  let runs := x.st = .placed && x.restoring = 0 && !(s.sett sett).swaps.any (fun w => w.gangRec = record)
  .next (if x.recov && runs && decide (x.catch_ ≤ x.ran + (s.cycle - x.runFrom)) then
      s.modRecord sett record (fun y => { y with gt := false, recov := false, catch_ := 0 })
    else s)

end Sys2Proof.Machine
end

