-- ==== Sys2Proof/Machine/Context.lean ====
section
/-! DEFINITION. The context image (spec/18, R387 to R392): what it holds of a gang, byte for byte, and what a gang that comes back
takes from it. -/

namespace Sys2Proof.Machine

/-! ## Writing fields -/

/-- A field of an image: offset, bytes, value. -/
abbrev Field := Nat × Nat × Nat

/-- Write the fields of a part at an address of a sett's HBM. -/
def State.putFields (s : State) (sett base : Nat) (l : List Field) : State :=
  l.foldl (fun s f => s.hbmWrite sett (base + f.1) f.2.1 f.2.2) s

/-- Clear a range of a sett's HBM. -/
def State.hbmClear (s : State) (sett pa n : Nat) : State :=
  { s with hbm := s.hbm.filter (fun p => decide (p.1 < hbmAddr sett pa) || decide (hbmAddr sett pa + n ≤ p.1)) }

/-- Fields moved to another offset. -/
def atOff (o : Nat) (l : List Field) : List Field := l.map (fun f => (o + f.1, f.2))

/-- The launch record as memory holds it (R319). -/
def LaunchRec.word (x : LaunchRec) : Nat :=
  x.card * 2 ^ 512 + x.spill * 2 ^ 448 + x.gang * 2 ^ 424 + x.ganggen * 2 ^ 416 + x.tries * 2 ^ 414 + (if x.gt then 2 ^ 413 else 0) +
  (if x.recov then 2 ^ 412 else 0) + x.catch_ * 2 ^ 336 + x.gbar * 2 ^ 320 + x.vclus * 2 ^ 312 + x.cores * 2 ^ 308

/-! ## Block sections (R388) -/

/-- Offsets of the parts of a block section of kernel descriptor k. -/
def oCrew (c : Nat) : Nat := 128 + 32768 * c
def oRegs (k : Nat) : Nat := oCrew (kCrews k)
def oCounts (k : Nat) : Nat := oRegs k + 128 * (kCrews k * kRegs k)
def oReleased (k : Nat) : Nat := oCounts k + 8 * (kCrews k * kRegs k)
def oPad (k : Nat) : Nat := oReleased k + 4 * (kCrews k * kRegs k)
def oTiles (k : Nat) : Nat := oPad k + padBytes (kScratch k)
def oTileState (k : Nat) : Nat := oTiles k + 16384 * kArrays k
def oAccum (k : Nat) : Nat := oTileState k + 640 * kArrays k
def oOps (k : Nat) : Nat := oAccum k + 256 * kAccum k

/-! ## Crew records (R389, R390) -/

/-- State code of a thread; a ready thread whose instruction waits for a pending form is blocked on it. -/
def State.threadCode (s : State) (k l : Nat) (t : Thread) : Nat :=
  match t.st with
  | .exited => 1
  | .waiting _ | .sleeping _ _ _ => 2
  | .parked => 3
  | .ready =>
    match s.fetch k t.pc.toNat with
    | .instr i => if (s.crew k).formHolds i (maskOf [l]) then 4 else 0
    | _ => 0

def State.threadFields (s : State) (k : Nat) : List Field :=
  let c := s.crew k
  (List.range 32).flatMap (fun l =>
    let t := c.thread l
    let f := Tab.get {} c.frame l
    let frame := if c.handler then f.pc.toNat * 2 ^ 64 + (match f.st with | .exited => 1 | .ready => 0 | .parked => 3 | _ => 2) * 2 ^ 141 else 0
    [(32 * l, 32, t.pc.toNat + s.threadCode k l t * 2 ^ 128 + frame)])

/-- Cards of a crew in its core's post buffer. -/
def State.cardsOf (s : State) (k : Nat) : List PostCard := (s.core (s.crew k).core).post.filter (fun p => p.crew = k)

/-- The crew words. -/
def State.crewWords (s : State) (k : Nat) : Nat :=
  let c := s.crew k
  c.trapPc.toNat * 2 ^ 448 + c.trapInfo.toNat * 2 ^ 416 + c.trapCode.toNat * 2 ^ 384 + min 8 c.deferred.length * 2 ^ 344 +
  c.frontier.devgen * 2 ^ 320 + c.frontier.ganggen * 2 ^ 312 + c.epoch * 2 ^ 296 + c.seq * 2 ^ 288 + c.egress.length * 2 ^ 280 +
  (s.cardsOf k).length * 2 ^ 272 + c.colls.length * 2 ^ 264 + c.symmask % 2 ^ 16 * 2 ^ 224 + c.status.toNat * 2 ^ 192 + c.wb * 2 ^ 160 +
  c.stores * 2 ^ 144 + (if c.handler then 1 else 0)

def leaseFields (c : Crew) : List Field :=
  c.leases.filterMap (fun p => p.2.map (fun y => (4 * p.1, 4, y.first + (y.count - 1) * 2 ^ 9 + 2 ^ 14 + 2 ^ 15)))

def frontierFields (c : Crew) : List Field :=
  (c.frontier.pairs.zip (List.range 16)).map (fun p => (8 * p.2, 8, 2 ^ 63 + p.1.1 * 2 ^ 16 + p.1.2))

def deferredFields (c : Crew) : List Field :=
  (c.deferred.zip (List.range 8)).map (fun p => (16 * p.2, 16, p.1.pc.toNat + p.1.info.toNat * 2 ^ 64 + p.1.code * 2 ^ 96))

/-- Mask of the held lanes of a form. -/
def Form.heldMask (f : Form) : Nat := (List.range 32).foldl (fun m l => if (f.lane l).held then m + 2 ^ l else m) 0

/-- A pending-form entry. -/
def formFields (f : Form) : List Field :=
  (0, 16, f.reg + f.sym * 2 ^ 9 + f.kind * 2 ^ 13 + f.rnd * 2 ^ 15 + 2 ^ 18 + f.heldMask * 2 ^ 32) ::
  (List.range 32).flatMap (fun l => [(16 + 4 * l, 4, (f.lane l).scale.toNat), (144 + 4 * l, 4, (f.lane l).offset.toNat)])

/-- A symbol record: addresses, what has arrived, size, hint and lanes of the load. -/
def State.symbolFields (s : State) (y : Sym) : List Field :=
  match s.req y.req with
  | none => [(384, 32, y.mask.toNat * 2 ^ 32 + y.mask.toNat * 2 ^ 64)]
  | some r =>
    (384, 32, r.zfield + r.hint * 2 ^ 3 + y.mask.toNat * 2 ^ 32 + (maskOf ((r.lanes.filter LaneReq.back).map LaneReq.lane)).toNat * 2 ^ 64) ::
    r.lanes.flatMap (fun x => (8 * x.lane, 8, x.va) :: (if x.back then [(256 + 4 * x.lane, 4, x.value)] else []))

/-- log2 code of a store's size in bytes (R51). -/
def sizeCode (n : Nat) : Nat := match n with | 1 => 0 | 2 => 2 | 4 => 4 | 8 => 5 | _ => 6

/-- Lanes of a store as its record has them: the halves of a 128-bit store stand as one. -/
def Req.whole (r : Req) : List LaneReq := r.lanes.filter (fun x => x.half = 0)

/-- An egress entry. A store of 64 bits has its upper half in the place of the scale; what a 128-bit store has beyond that stands in
`upperHalves` (log 27). -/
def State.egressFields (s : State) (e : Egress) : List Field :=
  match s.req e.req with
  | none => []
  | some r =>
    let (op, red, hs) : Nat × Nat × Nat := match r.kind with
      | .store => (0, 0, r.hint)
      | .stl => (1, 0, r.scope)
      | .atom o _ _ _ => (2, o, r.scope)
      | _ => (0, 0, 0)
    let (data, sym, rnd, held) : Nat × Nat × Nat × Nat := match e.form with
      | none => (0, 0, 0, 0)
      | some f => (f.kind + 1, f.sym, f.rnd, f.heldMask)
    let size := if r.lanes.any (fun x => x.half != 0) then 16 else r.size
    (512, 64, sizeCode size + hs * 2 ^ 3 + op * 2 ^ 6 + red * 2 ^ 8 + data * 2 ^ 12 + sym * 2 ^ 14 + rnd * 2 ^ 18 +
      (maskOf (r.whole.map LaneReq.lane)).toNat * 2 ^ 32 + held * 2 ^ 64 + r.stamp.word * 2 ^ 96) ::
    r.whole.flatMap (fun x =>
      let (lo, hi) : Nat × Nat := match e.form with
        | none => (x.data % 2 ^ 32, x.data / 2 ^ 32 % 2 ^ 32)
        | some f => ((f.lane x.lane).offset.toNat, (f.lane x.lane).scale.toNat)
      [(8 * x.lane, 8, x.va), (256 + 4 * x.lane, 4, lo), (384 + 4 * x.lane, 4, hi)])

/-- Upper halves of the 128-bit stores in a crew's egress queue, by the place of the entry in the crew record (log 27). -/
def State.upperHalves (s : State) (k : Nat) : List (Nat × Nat) :=
  (((s.crew k).egress.zip (List.range 31)).filterMap (fun p => (s.req p.1.req).map (fun r =>
    (0x3300 + 576 * p.2, (r.lanes.filter (fun x => x.half != 0)).foldl (fun v x => v + x.data % 2 ^ 64 * 2 ^ (64 * x.lane)) 0)))).filter
      (fun p => p.2 != 0)

/-- A thread waits or sleeps. -/
def ThreadSt.waits (t : ThreadSt) : Bool := match t with | .waiting _ | .sleeping _ _ _ => true | _ => false

/-- Waiting and sleeping threads of a crew, by the place of the thread in the crew record, those of the trap frame 16 bytes further
(log 127). -/
def Crew.waits (c : Crew) : List (Nat × ThreadSt) :=
  (List.range 32).flatMap (fun l => [(32 * l, (c.thread l).st), (32 * l + 16, (Tab.get {} c.frame l).st)].filter (fun p => p.2.waits))

/-- A crew record. -/
def State.crewFields (s : State) (k : Nat) : List Field :=
  let c := s.crew k
  s.threadFields k ++
  (List.range 32).map (fun l => (0x400 + 2 * l, 2, (Tab.get 0 c.preds l).toNat)) ++
  (0x440, 64, s.crewWords k) ::
  atOff 0x480 (leaseFields c) ++ atOff 0x500 (frontierFields c) ++
  (c.colls.zip (List.range 64)).map (fun p => (0x580 + 4 * p.2, 4, p.1)) ++
  atOff 0x680 (deferredFields c) ++
  (c.forms.zip (List.range 16)).flatMap (fun p => atOff (0x800 + 272 * p.2) (formFields p.1)) ++
  c.syms.flatMap (fun y => atOff (0x1900 + 416 * y.num) (s.symbolFields y)) ++
  (c.egress.zip (List.range 31)).flatMap (fun p => atOff (0x3300 + 576 * p.2) (s.egressFields p.1)) ++
  ((s.cardsOf k).zip (List.range 16)).map (fun p => (0x7B00 + 64 * p.2, 64, p.1.card.getD 0))

/-! ## Sequencer operations (R388, R390) -/

/-- State of an operation in its progress word: an operation that is read and that an older one holds back waits on order, and so
does an AMODE that has not started (R231, R232). -/
def State.progressState (s : State) (o : SeqOp) : Nat :=
  let older := (s.core o.core).seq.takeWhile (fun x => x.id != o.id)
  match o.state with
  | .queued => if o.form = 5 || (o.params.isSome && older.any (fun x => x.blocks o)) then 1 else 0
  | .waiting => 1
  | .running => 2
  | .retired => 3

/-- Rows or slots done; none of an operation that has not started. -/
def SeqOp.doneNow (o : SeqOp) : Nat := if o.state = .queued then 0 else o.done

/-- The progress word (R231). -/
def State.progress (s : State) (o : SeqOp) : Nat := o.form * 2 ^ 28 + s.progressState o * 2 ^ 26 + o.doneNow % 2 ^ 12

/-- Operations of a block in queue order: those it issued, and those that reach it by multicast. -/
def State.blockOps (s : State) (b : Nat) : List SeqOp := (s.core (s.block b).core).seq.filter (fun o => o.block = b)

def listBytes (l : List Nat) : Nat := (l.length * 2 + 63) / 64 * 64

/-- An operation: its header, then for MMG its lists. What the header has no name for, bytes 136 to 191, keeps the operation's
number, the block that issued it, its targets, its address and a count of rows above 4,095 (log 28). -/
def State.opFields (s : State) (o : SeqOp) : List Field :=
  let block := if o.form = 5 then [(0, 4, o.addr), (4, 1, if o.compute then 1 else 0)] else [(0, 128, o.params.getD 0)]
  block ++
  [(128, 4, s.progress o), (132, 1, o.crew % 32), (133, 1, o.lane), (134, 2, if o.form = 3 then o.gather.length else 0),
   (136, 1, if crewBlock o.crew = o.block then 0 else blockId (crewBlock o.crew) + 1), (137, 1, o.targets), (138, 1, o.reached),
   (139, 1, o.missed), (140, 1, match o.reason with | none => 0 | some r => r + 1), (141, 1, if o.params.isSome then 1 else 0),
   (142, 1, if o.gateTiming then 1 else 0), (144, 8, o.id), (152, 8, o.addr), (160, 12, o.stamp.word), (176, 8, o.pc.toNat),
   (184, 8, o.doneNow / 2 ^ 12)] ++
  (o.gather.zip (List.range o.gather.length)).map (fun p => (256 + 2 * p.2, 2, p.1)) ++
  (o.scatter.zip (List.range o.scatter.length)).map (fun p => (256 + listBytes o.gather + 2 * p.2, 2, p.1))

def SeqOp.bytes (o : SeqOp) : Nat := 256 + listBytes o.gather + listBytes o.scatter

/-- Operations one after another. -/
def State.opsFields (s : State) : List SeqOp → List Field
  | [] => []
  | o :: l => s.opFields o ++ atOff o.bytes (s.opsFields l)

/-! ## The image -/

/-- Registers, counts and released marks of a block; released slots are written as zero (R28). -/
def State.regFields (s : State) (b k : Nat) : List Field :=
  (List.range (kCrews k)).flatMap (fun c =>
    let x := s.crew (crewKey b c)
    (List.range (kRegs k)).flatMap (fun r =>
      let n := c * kRegs k + r
      let vs := (List.range 32).map (fun l => x.slot r l)
      [(oRegs k + 128 * n, 128, vs.foldr (fun y v => (if y.rel then 0 else y.val.toNat) + 2 ^ 32 * v) 0),
       (oCounts k + 8 * n, 8, vs.foldr (fun y v => y.cnt.toNat + 4 * v) 0),
       (oReleased k + 4 * n, 4, vs.foldr (fun y v => (if y.rel then 1 else 0) + 2 * v) 0)]))

/-- Tile slots of a block. -/
def State.tileFields (s : State) (b k : Nat) : List Field :=
  (List.range (kArrays k)).flatMap (fun i =>
    let t := Tab.get Tile.init (s.block b).slots i
    t.weights.map (fun p => (oTiles k + 16384 * i + p.1, 1, p.2.toNat)) ++
    (List.range 512).map (fun j => (oTileState k + 640 * i + j, 1, Tab.get scaleDefault t.scales j)) ++
    (List.range 64).map (fun c => (oTileState k + 640 * i + 512 + c, 1,
      (List.range 8).foldl (fun v j => if Tab.get false t.nan (8 * c + j) then v + 2 ^ j else v) 0)) ++
    [(oTileState k + 640 * i + 576, 1, (if t.compute then 1 else 0) + 2 * t.span)])

/-- A block section. -/
def State.sectionFields (s : State) (b k : Nat) : List Field :=
  let x := s.block b
  (0, 64, k) :: (64, 1, min 32 (s.blockOps b).length) ::
  (List.range (kCrews k)).flatMap (fun c => if (s.crew (crewKey b c)).live then atOff (oCrew c) (s.crewFields (crewKey b c))
    else (List.range 32).map (fun l => (oCrew c + 32 * l, 32, 2 ^ 128))) ++
  s.regFields b k ++ x.pad.map (fun p => (oPad k + p.1, 1, p.2.toNat)) ++ s.tileFields b k ++
  x.acc.map (fun p => (oAccum k + 4 * p.1, 4, p.2.toNat)) ++
  atOff (oOps k) (s.opsFields (s.blockOps b))

/-- Bytes of a block section with its operations. -/
def State.sectionSize (s : State) (b k : Nat) : Nat := oOps k + (s.blockOps b).foldl (fun n o => n + o.bytes) 0

/-- What is poisoned of a block, as offset and bytes of its section: the image stands in HBM, where the marks of its sectors keep it
(R422). -/
def State.sectionPoison (s : State) (b k : Nat) : List (Nat × Nat) :=
  (s.block b).poison.map (fun z =>
    if z < 2 ^ 16 then (oPad k + 64 * z, 64)
    else if z < 2 ^ 17 then (oTiles k + 64 * (z - 2 ^ 16), 64)
    else (oAccum k + 256 * (z - 2 ^ 17), 256))

/-- The marks of a block whose section begins at an address, and whether another part of the section is poisoned. -/
def State.readPoison (s : State) (sett a k : Nat) : List Nat × Bool :=
  let lo := hbmAddr sett a
  let zs : List (Option Nat) := (s.poison.filter (fun p => p.2 && decide (lo < 64 * p.1 + 64) && decide (64 * p.1 < lo + oOps k))).map (fun p =>
    let o := 64 * p.1 - lo
    if oPad k ≤ o && o < oTiles k then some ((o - oPad k) / 64)
    else if oTiles k ≤ o && o < oTileState k then some (2 ^ 16 + (o - oTiles k) / 64)
    else if oAccum k ≤ o && o < oOps k then some (2 ^ 17 + (o - oAccum k) / 256)
    else none)
  ((zs.filterMap id).eraseDups, zs.contains none)

/-- Write the context image of a gang at an address (R387). -/
def State.writeImage (s : State) (sett r a size : Nat) : State :=
  let x := s.record sett r
  let bs := s.gangBlocks sett r
  let sizes := bs.map (fun b => units (s.sectionSize b x.kdesc))
  let offs := (List.range bs.length).map (fun i => 65536 + (sizes.take i).foldl (· + ·) 0)
  let s := s.hbmClear sett a (units size)
  let inside (p : Nat × Nat) : Bool := decide (hbmAddr sett a ≤ p.1) && decide (p.1 < hbmAddr sett a + units size)
  let tails : List (Nat × Nat) := (bs.zip offs).flatMap (fun p => (List.range (kCrews x.kdesc)).flatMap (fun c =>
    (s.upperHalves (crewKey p.1 c)).map (fun y => (hbmAddr sett (a + p.2 + oCrew c) + y.1, y.2))))
  let waits : List (Nat × ThreadSt) := (bs.zip offs).flatMap (fun p => (List.range (kCrews x.kdesc)).flatMap (fun c =>
    (s.crew (crewKey p.1 c)).waits.map (fun y => (hbmAddr sett (a + p.2 + oCrew c) + y.1, y.2))))
  let others : Tab (Option ThreadSt) := s.imageWaits.filter (fun (p : Nat × Option ThreadSt) => !inside (p.1, 0))
  let kept : Tab (Option ThreadSt) := waits.foldl (fun (t : Tab (Option ThreadSt)) (y : Nat × ThreadSt) => Tab.set none t y.1 (some y.2)) others
  let s := { s with imageWaits := kept }
  let s := { s with imageTails := tails.foldl (fun (t : Tab Nat) (y : Nat × Nat) => Tab.set 0 t y.1 y.2) (s.imageTails.filter (fun p => !inside p)) }
  let head : List Field :=
    [(0, 88, 0x3A + (bs.length - 1) * 2 ^ 655 + sett * 2 ^ 657 + x.cores * 2 ^ 660 + x.vclus * 2 ^ 664 + s.mapgen % 2 ^ 32 * 2 ^ 672),
     (120, 8, size), (128, 128, x.word)] ++
    (offs.zip (List.range 4)).map (fun p => (88 + 8 * p.2, 8, p.1))
  let s' := (s.markPoison sett a (units size) false).putFields sett a head
  (bs.zip offs).foldl (fun (t : State) p =>
    (s.sectionPoison p.1 x.kdesc).foldl (fun (t : State) y => t.markPoison sett (a + p.2 + y.1) y.2 true)
      (t.putFields sett (a + p.2) (s.sectionFields p.1 x.kdesc))) s'

/-! ## Reading an image back (R391, R392) -/

/-- Field reader at an address. -/
def State.imageRead (s : State) (sett a n : Nat) : Nat := s.hbmRead sett a n

/-- A thread as its record has it: one that was parked executes its instruction again, and so does one that waited or slept, with its
phase, deadline and time where the image has kept them (R347, R391; log 127). -/
def readThread (v now : Nat) (frame : Bool) (kept : Option ThreadSt) : Thread :=
  let st := if frame then bits v 143 141 else bits v 130 128
  let pc := if frame then bits v 127 64 else bits v 63 0
  if st = 1 then {}
  else Thread.again { pc := BitVec.ofNat 64 pc, st := (if st = 2 then kept.getD .ready else .ready), wait := 0, due := now } now

/-- Trap codes whose TRAPINFO names a fault buffer entry. -/
def entryOf (code info : Nat) : Option Nat := if code = 11 || code = 12 || code = 13 then some info else none

/-- Deferred traps; their handler's return resumes every thread where it stood (R347). -/
def deferredCode (code : Nat) : Bool := code = 8 || code = 9 || code = 12 || code = 13 || code = 14

def State.readForm (s : State) (sett a now : Nat) : Option Form :=
  let h := s.imageRead sett a 16
  if !h.testBit 18 then none
  else some
    { reg := bits h 8 0, sym := bits h 12 9, kind := bits h 14 13, rnd := bits h 17 15, avail := now,
      lanes := (List.range 32).map (fun l =>
        { scale := BitVec.ofNat 32 (s.imageRead sett (a + 16 + 4 * l) 4), offset := BitVec.ofNat 32 (s.imageRead sett (a + 144 + 4 * l) 4),
          held := h.testBit (32 + l) }) }

/-- Registers of a crew from its block section. -/
def State.readRegs (s : State) (sett a k c : Nat) : Tab Slot :=
  (List.range (kRegs k)).foldl (fun (t : Tab Slot) r =>
    let n := c * kRegs k + r
    let v := s.imageRead sett (a + oRegs k + 128 * n) 128
    let cnt := s.imageRead sett (a + oCounts k + 8 * n) 8
    let rel := s.imageRead sett (a + oReleased k + 4 * n) 4
    (List.range 32).foldl (fun (t : Tab Slot) l => Tab.set {} t (32 * r + l)
      { val := BitVec.ofNat 32 (v / 2 ^ (32 * l)), cnt := BitVec.ofNat 2 (cnt / 4 ^ l), rel := rel.testBit l }) t) []

/-- A crew as its record and the register parts give it, without what is in flight (R391). -/
def State.readCrew (s : State) (sett a k b j core : Nat) : Crew :=
  let o := a + oCrew j
  let w := s.imageRead sett (o + 0x440) 64
  let th (l : Nat) : Nat := s.imageRead sett (o + 32 * l) 32
  let handler := w.testBit 0
  let code := bits w 415 384
  let info := bits w 447 416
  let trapPc := bits w 511 448
  let kept (l : Nat) : Option ThreadSt := Tab.get none s.imageWaits (hbmAddr sett (o + l))
  let threads : Tab Thread := ((List.range 32).map (fun l => (l, readThread (th l) s.cycle false (kept (32 * l))))).filter
    (fun p => p.2 != ({} : Thread))
  let frame : Tab Thread := if handler then
      ((List.range 32).map (fun l => (l, readThread (th l) s.cycle true (kept (32 * l + 16))))).filter (fun p => p.2 != ({} : Thread)) else []
  let lease (i : Nat) : Option Lease :=
    let v := s.imageRead sett (o + 0x480 + 4 * i) 4
    if v.testBit 15 then some { first := bits v 8 0, count := bits v 13 9 + 1, place := (if (s.record sett (blockRec b)).spill = 0 then .lost else .backing), lender := none, revoked := true, slots := [] }
    else none
  { live := threads != [] || handler, core := core, block := b, idx := j, nregs := kRegs k, regs := s.readRegs sett a k j
    preds := (List.range 32).foldl (fun (t : Tab (BitVec 12)) l =>
      Tab.set 0 t l (BitVec.ofNat 12 (s.imageRead sett (o + 0x400 + 2 * l) 2))) []
    threads := threads, frame := frame, wb := bits w 191 160, status := BitVec.ofNat 32 (bits w 223 192)
    trapCode := BitVec.ofNat 32 code, trapInfo := BitVec.ofNat 32 info, trapPc := BitVec.ofNat 64 trapPc, handler := handler
    trapLanes := if handler && !deferredCode code then
        some (maskWhere (fun l => bits (th l) 143 141 = 0 && bits (th l) 127 64 = trapPc)) else none
    trapEntry := if handler then entryOf code info else none
    deferred := (List.range (bits w 347 344)).map (fun i =>
      let v := s.imageRead sett (o + 0x680 + 16 * i) 16
      { code := bits v 103 96, pc := BitVec.ofNat 64 v, info := BitVec.ofNat 32 (bits v 95 64), entry := entryOf (bits v 103 96) (bits v 95 64),
        due := s.cycle })
    forms := (List.range 16).filterMap (fun i => s.readForm sett (o + 0x800 + 272 * i) s.cycle)
    leases := (List.range 4).foldl (fun (t : Tab (Option Lease)) i => Tab.set none t i (lease i)) []
    epoch := bits w 311 296, seq := bits w 295 288
    frontier := { devgen := bits w 335 320, ganggen := bits w 319 312, pairs := (List.range 16).filterMap (fun i =>
      let v := s.imageRead sett (o + 0x500 + 8 * i) 8
      if v.testBit 63 then some (bits v 36 16, bits v 15 0) else none) }
    stores := bits w 148 144
    colls := (List.range (bits w 271 264)).map (fun i => s.imageRead sett (o + 0x580 + 4 * i) 4) }

/-- The load of a symbol is issued again for the lanes without data (R100). -/
def State.reissueSymbol (s : State) (sett o k num : Nat) : State :=
  let a := o + 0x1900 + 416 * num
  let h := s.imageRead sett (a + 384) 32
  let mask := bits h 63 32
  let got := bits h 95 64
  let z := bits h 2 0
  let size := sizeBytes z
  let (d, s) := s.draw
  let pc := BitVec.ofNat 64 ((Config.remote d 0).toNat / 4 * 4)
  let act := (List.range 32).filter (fun l => mask.testBit l)
  let lanes := act.map (fun l => (l, s.imageRead sett (a + 8 * l) 8))
  let rest := (lanes.filter (fun x => !got.testBit x.1)).map (fun x => (x.1, x.2, s.laneTarget k x.2 size .read))
  let target (l : Nat) : Option Target := match rest.find? (fun x => x.1 = l) with | some (_, _, .ok t) => some t | _ => none
  let r : Req :=
    { kind := .load, crew := k, pc := pc, size := size, zfield := z, hint := bits h 4 3, sym := some num, issued := s.cycle,
      frontier := (s.crew k).frontier
      lanes := lanes.map (fun x =>
        if got.testBit x.1 then { lane := x.1, va := x.2, target := none, value := s.imageRead sett (a + 256 + 4 * x.1) 4, done := true, back := true }
        else { lane := x.1, va := x.2, target := target x.1, due := s.cycle }) }
  let (id, s) := s.fresh
  let s := s.setReq id (some r)
  let s := s.modCrew k (fun c => { c with
    syms := c.syms ++ [{ num := num, req := id, mask := BitVec.ofNat 32 mask }], loads := c.loads + 1 })
  s.seekLanes id (rest.map (fun x => x.2))

/-- A recorded egress entry returns to the queue, in order. -/
def State.restoreEgress (s : State) (sett o k i : Nat) : State :=
  let a := o + 0x3300 + 576 * i
  let h := s.imageRead sett (a + 512) 64
  let size := sizeBytes (bits h 2 0)
  let mask := bits h 63 32
  let hs := bits h 5 3
  let (d, s) := s.draw
  let pc := BitVec.ofNat 64 ((Config.remote d 0).toNat / 4 * 4)
  let kind : ReqKind := match bits h 7 6 with
    | 0 => .store
    | 1 => .stl
    | _ => .atom (bits h 11 8) false false false
  let acc : Access := match bits h 7 6 with | 2 => .atomic | _ => .write
  let data := bits h 13 12
  let st := bits h 191 96
  let stamp : Stamp :=
    { devgen := bits st 95 80, src := bits st 79 78, sett := bits st 77 75, gang := bits st 74 64, ganggen := bits st 63 56,
      block := bits st 55 54, crew := bits st 53 49, epoch := bits st 48 33, seq := bits st 32 25, sat := st.testBit 19 }
  let word (l p : Nat) : Nat := s.imageRead sett (a + p + 4 * l) 4
  let act := (List.range 32).filter (fun l => mask.testBit l)
  let upper := Tab.get 0 s.imageTails (hbmAddr sett a)
  let form : Option Form := if data = 0 then none else some
    { reg := 0, sym := bits h 17 14, kind := data - 1, rnd := bits h 20 18, avail := s.cycle,
      lanes := (List.range 32).map (fun l =>
        { scale := BitVec.ofNat 32 (word l 384), offset := BitVec.ofNat 32 (word l 256), held := h.testBit (64 + l) }) }
  let value (l : Nat) : Nat :=
    if data != 0 || size < 8 then word l 256
    else word l 256 + 2 ^ 32 * word l 384 + (if size = 16 then 2 ^ 64 * bits upper (64 * l + 63) (64 * l) else 0)
  let tries := act.map (fun l => let va := s.imageRead sett (a + 8 * l) 8; (l, va, s.laneTarget k va size acc))
  let lanes : List LaneReq := tries.map (fun x =>
    { lane := x.1, va := x.2.1, target := (match x.2.2 with | .ok t => some t | _ => none), data := value x.1, due := s.cycle })
  let r : Req :=
    { kind := kind, crew := k, pc := pc, size := size, hint := hs % 4, scope := hs, lanes := lanes, issued := s.cycle, queued := true,
      stamp := stamp, frontier := (s.crew k).frontier, release := match kind with | .stl => true | _ => false }
  let (id, s) := s.fresh
  let s := s.setReq id (some r.halved)
  (s.modCrew k (fun c => { c with egress := c.egress ++ [{ req := id, form := form }] })).seekLanes id (tries.map (fun x => x.2))

/-- Recorded cards return to the post buffer. What they count as, POST instructions, is what the stores counter has beyond the
egress entries (R392). -/
def State.restoreCards (s : State) (sett o k n posts : Nat) : State :=
  let cards := (List.range n).map (fun i => s.imageRead sett (o + 0x7B00 + 64 * i) 64)
  let core := (s.crew k).core
  let (ids, s) := (List.range (max 1 posts)).foldl (fun (acc : List Nat × State) _ =>
    let (id, t) := acc.2.fresh
    let r : Req := { kind := .post, crew := k, pc := 0, size := 64, lanes := [], issued := t.cycle }
    (acc.1 ++ [id], t.setReq id (some r))) ([], s)
  if n = 0 then forEach ids s (fun id t => t.setReq id none)
  else
    let (d, s) := s.draw
    let x := (Config.remote d 0).toNat
    let new : List PostCard := (cards.zip (List.range n)).map (fun p =>
      { crew := k, pc := BitVec.ofNat 64 (x / 4 * 4), lane := x / 2 ^ (64 + 5 * (p.2 % 12)) % 32, req := (ids[min p.2 (ids.length - 1)]?).getD 0,
        card := some p.1 })
    (s.modCore core (fun g => { g with post := g.post ++ new })).scheduleSub 1 46 (core % 128) (.postBufferDrain core)

/-- A recorded operation. -/
def State.readOp (s : State) (sett a b core : Nat) : SeqOp :=
  let prog := s.imageRead sett (a + 128) 4
  let form := bits prog 31 28
  let home := s.imageRead sett (a + 136) 1
  let r := blockRec b
  let hb := if home = 0 then b else blockKey sett r (home - 1)
  let k := crewKey hb (s.imageRead sett (a + 132) 1 % 32)
  let n := s.imageRead sett (a + 134) 2
  let list (o : Nat) : List Nat := (List.range n).map (fun i => s.imageRead sett (a + o + 2 * i) 2)
  let st := s.imageRead sett (a + 160) 12
  let why := s.imageRead sett (a + 140) 1
  { id := s.imageRead sett (a + 144) 8, crew := k, lane := s.imageRead sett (a + 133) 1 % 32, pc := BitVec.ofNat 64 (s.imageRead sett (a + 176) 8),
    form := form, addr := s.imageRead sett (a + 152) 8, compute := form = 5 && s.imageRead sett (a + 4) 1 = 1,
    home := (s.block hb).core, block := b, core := core, issued := s.cycle,
    params := if s.imageRead sett (a + 141) 1 = 1 && form != 5 then some (s.imageRead sett a 128) else none,
    gather := list 256, scatter := if n = 0 then [] else list (256 + (n * 2 + 63) / 64 * 64),
    state := (match bits prog 27 26 with | 0 => .queued | 1 => .waiting | 2 => .running | _ => .retired), done := bits prog 11 0 + 2 ^ 12 * s.imageRead sett (a + 184) 8,
    gateTiming := s.imageRead sett (a + 142) 1 = 1, targets := s.imageRead sett (a + 137) 1, reached := s.imageRead sett (a + 138) 1,
    missed := s.imageRead sett (a + 139) 1, reason := if why = 0 then none else some (why - 1), stopped := true,
    stamp := { devgen := bits st 95 80, src := bits st 79 78, sett := bits st 77 75, gang := bits st 74 64, ganggen := bits st 63 56,
               block := bits st 55 54, crew := bits st 53 49, epoch := bits st 48 33, seq := bits st 32 25, sat := st.testBit 19 } }

/-- The operations of a section, in order. -/
def State.readOps (s : State) (sett b core : Nat) : Nat → Nat → List SeqOp
  | 0, _ => []
  | n + 1, a =>
    let o := s.readOp sett a b core
    o :: State.readOps s sett b core n (a + o.bytes)

/-- Tile slots of a section; column sums are not saved (R388). -/
def State.readTile (s : State) (sett a k i : Nat) : Tile :=
  let w := a + oTiles k + 16384 * i
  let st := a + oTileState k + 640 * i
  let lo := hbmAddr sett w
  let mode := s.imageRead sett (st + 576) 1
  { weights := (s.hbm.filter (fun p => decide (lo ≤ p.1) && decide (p.1 < lo + 16384))).map (fun p => (p.1 - lo, p.2))
    scales := (List.range 512).foldl (fun (t : Tab Nat) j => Tab.set scaleDefault t j (s.imageRead sett (st + j) 1)) []
    nan := (List.range 512).foldl (fun (t : Tab Bool) j =>
      Tab.set false t j ((s.imageRead sett (st + 512 + j / 8) 1).testBit (j % 8))) []
    span := mode / 2 % 4, compute := mode % 2 = 1 }

end Sys2Proof.Machine
end

