-- ==== Sys2Proof/Machine/Swap.lean ====
section
/-! DEFINITION. Swapping a gang out and in (spec/18, R383 to R394). -/

namespace Sys2Proof.Machine

/-! ## Swap-out -/

/-- The swap-out of a record at a step. -/
def State.swapAt (s : State) (sett r : Nat) (step : SwapStep) : Option Swap :=
  (s.sett sett).swaps.find? (fun w => w.gangRec = r && w.step = step)

def State.setSwap (s : State) (sett r : Nat) (step : SwapStep) : State :=
  s.modSett sett (fun t => { t with swaps := t.swaps.map (fun w => if w.gangRec = r then { w with step := step } else w) })

/-- Events that would let a thread of a stopped crew go on (R386). -/
def Event.resumes (ks : List Nat) (e : Event) : Bool :=
  match e with
  | .waiterResume k _ | .trywDeadline k _ | .sleepExpiry k _ | .pathPromotion k _ | .deferredTrapDelivery k => ks.contains k
  | _ => false

/-- Cores on which a gang has blocks. -/
def State.gangCores (s : State) (sett r : Nat) : List Nat := (s.gangBlocks sett r).map (fun b => (s.block b).core)

/-- SWAP_OUT_STOP (R383, R384, R386): crews issue nothing more, sequencers stop, leases are revoked, waiters leave. -/
def execSwapOutStop (sett : Nat) (record : Nat) (s : State) : Out :=
  match s.swapAt sett record .stop with
  | none => .next s
  | some _ =>
    let ks := s.gangCrews sett record
    let cores := s.gangCores sett record
    let s := (forEach ks s (fun k t => t.modCrew k (fun c => { c with stopped := true }))).unschedule (Event.resumes ks)
    let s := s.dropWaiters sett (fun w => match w with
      | .threads k _ _ _ => ks.contains k
      | .load id => (match s.req id with | some r => ks.contains r.crew | none => false)
      | _ => false)
    let s := forEach cores s (fun g t =>
      let ops := (t.core g).seq.filter (fun o => ks.contains o.crew)
      forEach ops (t.wakeCore g) (fun o u => u.schedule 0 34 (.seqStopRequest g o.id)))
    let s := forEach ks s (fun k t => forEach ((t.crew k).leases.map Prod.fst) t (fun i u => u.schedule 0 48 (.leaseRevoke k i)))
    .next ((s.setSwap sett record .drain).schedule 2 87 (.swapOutDrainDone sett record))

/-- A request that the image records, or that needs no end (R384). -/
def Req.recorded (r : Req) : Bool := r.queued || r.sym.isSome || r.kind = .post || r.kind = .pref

/-- Everything that the drain table marks as drained has ended. -/
def State.drained (s : State) (sett record : Nat) : Bool :=
  let ks := s.gangCrews sett record
  let cores := s.gangCores sett record
  !s.reqs.any (fun p => match p.2 with | some r => ks.contains r.crew && !r.recorded | none => false) &&
  !s.copies.any (fun p => match p.2 with | some c => ks.contains c.crew | none => false) &&
  ks.all (fun k => (s.crew k).leases.all (fun p => match p.2 with
    | some y => y.revoked && y.place != .moving && y.place != .filling
    | none => true)) &&
  cores.all (fun g => (s.core g).seq.all (fun o => !ks.contains o.crew || o.stopped || o.state = .retired) &&
    (s.core g).post.all (fun p => !ks.contains p.crew || p.card.isSome))

/-- Cycle in which the strike windows of a gang's cores have closed: 256 after its last issue and its last bank write. -/
def State.closeAt (s : State) (sett record : Nat) : Nat :=
  let issued := (s.gangCrews sett record).foldl (fun m k => max m (s.crew k).lastIssue) 0
  256 + (s.gangBlocks sett record).foldl (fun m b => (s.block b).young.foldl (fun m y => max m y.1) m) issued

/-- SWAP_OUT_DRAIN_DONE. -/
def execSwapOutDrainDone (sett : Nat) (record : Nat) (s : State) : Out :=
  match s.swapAt sett record .drain with
  | none => .next s
  | some _ =>
    if !s.drained sett record then .next (s.schedule 1 87 (.swapOutDrainDone sett record))
    else .next ((s.setSwap sett record .close).schedule (s.closeAt sett record - s.cycle) 87 (.swapOutCloseDone sett record))

/-- A deferring load whose data has not arrived by Close is recorded for its other lanes alone (R384). -/
def Req.cutOff (r : Req) : Req :=
  { r with lanes := r.lanes.map (fun x => if x.back then x else { x with target := none, out := false, free := false, done := false, wait := false }) }

/-- Steps that would carry a request on. -/
def Event.carries (ids : List Nat) (e : Event) : Bool :=
  match e with
  | .loadDataReturn id | .strikeClearance id => ids.contains id
  | _ => false

/-- SWAP_OUT_CLOSE_DONE: the strike windows have closed and no core of the gang restores; register caches are written back. -/
def execSwapOutCloseDone (sett : Nat) (record : Nat) (s : State) : Out :=
  match s.swapAt sett record .close with
  | none => .next s
  | some _ =>
    let at_ := s.closeAt sett record
    if (s.gangCores sett record).any (fun g => (s.core g).restoring.isSome) then .next (s.schedule 1 87 (.swapOutCloseDone sett record))
    else if !s.drained sett record then .next ((s.setSwap sett record .drain).schedule 1 87 (.swapOutDrainDone sett record))
    else if s.cycle < at_ then .next (s.schedule (at_ - s.cycle) 87 (.swapOutCloseDone sett record))
    else
      let ks := s.gangCrews sett record
      let ids := (s.reqs.filter (fun p => match p.2 with | some r => ks.contains r.crew && r.sym.isSome | none => false)).map Prod.fst
      let s := (forEach ids s (fun id t => t.modReq id Req.cutOff)).unschedule (Event.carries ids)
      let s := forEach ks s (fun k t => t.leaveActive k)
      let k := (s.record sett record).kdesc
      let size := (s.gangBlocks sett record).foldl (fun m b => max m (s.sectionSize b k)) 0
      .next ((s.setSwap sett record .write).schedule ((size + 63) / 64) 87 (.swapOutImageWritten sett record))

/-- SWAP_OUT_IMAGE_WRITTEN (R387). -/
def execSwapOutImageWritten (sett : Nat) (record : Nat) (s : State) : Out :=
  match s.swapAt sett record .write with
  | none => .next s
  | some w =>
    let s := s.writeImage sett record w.image w.size
    .next ((s.setSwap sett record .free).schedule 32 87 (.swapOutFree sett record))

/-- SWAP_OUT_FREE: the gang's arrays are free and its record is marked swapped. -/
def execSwapOutFree (sett : Nat) (record : Nat) (s : State) : Out :=
  match s.swapAt sett record .free with
  | none => .next s
  | some w =>
    let ks := s.gangCrews sett record
    let s := (s.discard sett ks).clearGang sett record
    let s := s.modSett sett (fun t => { t with swaps := t.swaps.filter (fun w => w.gangRec != record) })
    let s := s.modRecord sett record (fun y => { y with st := .swapped, waitFrom := s.cycle, ran := y.ran + (w.started - y.runFrom) })
    let s := s.settleClusters sett
    let s := if s.hib.step = 1 then s.schedule 0 89 .quiescePreemptDone else s
    .next (s.kick sett)

/-! ## Swap-in -/

/-- Collectives of a crew that still run at their attempt; each raises the copies counter by one (R392). -/
def State.rejoinColls (s : State) (sett k : Nat) : State :=
  let c := s.crew k
  let running := c.colls.filter (fun h => match Tab.get none (s.sett sett).colls (h % 65536) with
    | some x => x.crew = k && x.attempt = h / 65536 && !x.aborted
    | none => false)
  let s := s.setCrew k { c with colls := running, copies := running.length }
  forEach running s (fun h t =>
    let (g, t) := t.fresh
    let t := { t with groups := Tab.set none t.groups g (some { crew := k, left := 1 }) }
    t.modSett sett (fun u => { u with colls := Tab.modify none u.colls (h % 65536) (fun y => y.map (fun x => { x with copyGroup := g })) }))

/-- What was in flight of a crew when its record was written returns (R391, R392). -/
def State.reviveCrew (s : State) (sett o k : Nat) : State :=
  let w := s.imageRead sett (o + 0x440) 64
  let negr := bits w 287 280
  let npost := bits w 279 272
  let s := forEach ((List.range 16).filter (fun n => w.testBit (224 + n))) s (fun n t => t.reissueSymbol sett o k n)
  let s := forEach (List.range negr) s (fun i t => t.restoreEgress sett o k i)
  let s := s.restoreCards sett o k npost (bits w 148 144 - negr)
  let s := (s.rejoinColls sett k).drainEgress k
  let s := if (s.crew k).deferred = [] then s else s.schedule 1 90 (.deferredTrapDelivery k)
  ((s.refillTraps k).rearmThreads k).checkEnd k

/-- A crew record that holds no live thread and nothing in flight belongs to a crew that had ended. -/
def crewGone (w : Nat) : Bool := bits w 148 144 = 0 && bits w 287 264 = 0 && bits w 239 224 = 0 && bits w 347 344 = 0

/-- SWAP_IN_RESTORE_DONE (R391): the parts of the block's section are in place. Slots in compute mode take the column-sum pass
of 256 cycles before a crew becomes ready. -/
def execSwapInRestoreDone (block : Nat) (s : State) : Out :=
  let b := s.block block
  let sett := blockSett block
  let r := blockRec block
  let x := s.record sett r
  if !b.live || x.restoring = 0 || x.image = 0 then .next s
  else
    let k := x.kdesc
    let a := x.image + s.imageRead sett (x.image + 88 + 8 * blockId block) 8
    let tiles : Tab Tile := (List.range (kArrays k)).foldl (fun (t : Tab Tile) i =>
      let y := s.readTile sett a k i
      Tab.set Tile.init t i (if y.compute then y.withSums else y)) []
    let pass := tiles.any (fun p => p.2.compute)
    let lo := hbmAddr sett (a + oPad k)
    let pad : Memory := (s.hbm.filter (fun p => decide (lo ≤ p.1) && decide (p.1 < lo + padBytes (kScratch k)))).map (fun p => (p.1 - lo, p.2))
    let acc : Tab Word := (List.range (64 * kAccum k)).foldl (fun (t : Tab Word) i =>
      Tab.set 0 t i (BitVec.ofNat 32 (s.imageRead sett (a + oAccum k + 4 * i) 4))) []
    let (marks, bad) := s.readPoison sett a k
    let s := s.setBlock block { b with pad := pad, slots := tiles, acc := acc, poison := marks, readyAt := s.cycle + (if pass then 256 else 0) }
    let ops := s.readOps sett block b.core (s.imageRead sett (a + 64) 1 % 64) (a + oOps k)
    let s := forEach (List.range (kCrews k)) s (fun j t =>
      let key := crewKey block j
      let c := t.readCrew sett a k block j b.core
      let mine := (ops.filter (fun o => o.crew = key && crewBlock o.crew = o.block)).length
      if !c.live && crewGone (t.imageRead sett (a + oCrew j + 0x440) 64) && mine = 0 then t
      else (t.setCrew key { c with live := true, tiles := mine, lastIssue := t.cycle }).reviveCrew sett (a + oCrew j) key)
    let s := (s.modCore b.core (fun g => { g with seq := g.seq ++ ops })).resumeSeq b.core (fun o => o.block = block)
    let alive := (List.range 32).any (fun i => (s.crew (crewKey block i)).live)
    let s := if alive then s else s.modBlock block (fun y => { y with ended := true })
    let s := s.modRecord sett r (fun y => { y with restoring := y.restoring - 1, runFrom := s.cycle })
    -- poison that the image brings into registers or other state of the crews is consumed (R422)
    if bad then .next (s.consumePoison (crewKey block 0) 8)
    else .next (if (s.record sett r).restoring = 0 then
        let s := (s.freeContext sett x.image).modRecord sett r (fun y => { y with image := 0 })
        (if x.recov then s.schedule (x.catch_ - x.ran) 85 (.relaunchCatchupEnd sett r) else s).kick sett
      else s)

end Sys2Proof.Machine
end

