-- ==== Sys2Proof/Machine/Strikes.lean ====
section
/-! DEFINITION. Soft-error strikes and their rollback (spec/22, R411 to R420), patrol scrub (R423), converter calibration
(R432, R433). -/

namespace Sys2Proof.Machine

/-! ## Snapshots -/

/-- The state of a core at the start of a cycle: the oldest snapshot from it on (a cycle without one changed nothing). -/
def State.snapAt (s : State) (g point : Nat) (p : Snap → Bool) : Option (Nat × Snap) :=
  (Tab.get [] s.journals g).foldl (fun acc j => match j.snap with
    | some x => if decide (point ≤ j.cycle) && p x then some (j.cycle, x) else acc
    | none => acc) none

/-! ## REED_REPORT (R411, R416, R419) -/

/-- Compute die of a core. -/
def coreDie (g : Nat) : Nat := g / 64

/-- The first report of the event to which a report of a die belongs: one that arrived at most 16 cycles before. -/
def State.strikeEvent (s : State) (die : Nat) : Option Nat :=
  s.cores.findSome? (fun p => if coreDie p.1 = die then p.2.strikes.find? (fun c => decide (s.cycle ≤ c + 16)) else none)

/-- Fence a core (R419): its gangs are killed, the leases it lends are revoked. -/
def State.fenceCore (s : State) (g : Nat) : State :=
  let sett := coreSett g
  let s := s.modCore g (fun c => { c with fenced := true, restoring := none })
  let s := s.report sett { kind := 9, unit := 9, core := g }
  let s := forEach (s.core g).lent s (fun l t => t.schedule 0 48 (.leaseRevoke l.1 l.2))
  let gangs := ((s.blocksOn g).map blockRec).eraseDups
  forEach gangs s (fun r t => if (t.record sett r).st = .placed then t.killGang sett r else t)

/-- Discard what a core issued from a cycle on (R413, R416): requests, copies that started, engine writes, operations. -/
def State.discardFrom (s : State) (g point : Nat) : State :=
  let mine (k : Nat) : Bool := (s.crew k).core = g
  let late (r : Req) : Bool := mine r.crew && decide (point ≤ r.issued)
  let dead (c : Copy) : Bool := c.core = g && (match c.started with | some t => decide (point ≤ t) | none => false)
  let gone := (s.copies.filter (fun p => match p.2 with | some c => dead c | none => false)).map Prod.fst
  let lost := (s.reqs.filter (fun p => match p.2 with | some r => late r | none => false)).map Prod.fst
  let ops := ((s.core g).seq.filter (fun o => o.home = g && decide (point ≤ o.issued))).map SeqOp.id
  let waits (w : Waiter) : Bool := match w with
    | .threads k _ _ _ => mine k
    | .load id | .prefetch id => lost.contains id
    | .copy id _ _ => gone.contains id
    | .seq c op _ _ => c = g || ops.contains op
    | .late k _ _ issued => mine k && decide (point ≤ issued)
  let s := s.dropWaiters (coreSett g) waits
  let s := s.unschedule (fun e => match e with
    | .putPiecePerformed c p => lost.any (fun id => match s.req id with
        | some r => r.phase = 2 && r.dst = c + 1 && r.width = p
        | none => false)
    | _ => false)
  let clean (c : Core) : Core :=
    { c with score := c.score.filter (fun e => !gone.contains e.copy && !ops.contains e.copy)
             copies := c.copies.filter (fun i => !gone.contains i)
             seq := c.seq.filter (fun o => !ops.contains o.id) }
  { s with
    turn := s.turn.filter (fun u => !mine u.crew)
    reqs := s.reqs.filter (fun p => !lost.contains p.1)
    copies := s.copies.filter (fun p => !gone.contains p.1)
    cores := s.cores.map (fun (p : Nat × Core) => (p.1, clean p.2)) }

/-- A strike that was reported in cycle c names a core (R416, R419): a core that 16 events have named within 2^24 cycles is fenced; any
other starts to restore. -/
def State.strikeCore (s : State) (core c : Nat) : State :=
  let g := s.core core
  let strikes := c :: g.strikes.filter (fun t => decide (s.cycle < t + 2 ^ 24))
  let s := s.modCore core (fun g => { g with strikes := strikes })
  if 16 ≤ strikes.length then s.fenceCore core
  else
    let oldest := (Tab.get [] s.journals core).foldl (fun m j => min m j.cycle) s.cycle
    let new := max (c - 256) oldest
    let point := if g.restoring.isSome then min new g.point else new
    let e := s.journalUse core point
    let ends := s.cycle + 32 + (e + 7) / 8
    let s := s.unschedule (fun e => e = .rollbackRestoreDone core)
    let s := (s.discardFrom core point).modCore core (fun g => { g with restoring := some ends, point := point })
    s.schedule (ends - s.cycle) 2 (.rollbackRestoreDone core)

/-- REED_REPORT: a reed sensor's event names the core. The first report of an event writes the record. -/
def execReedReport (core : Nat) (s : State) : Out :=
  let g := s.core core
  let first := s.strikeEvent (coreDie core)
  let c := first.getD s.cycle
  if g.fenced || g.strikes.contains c then .next s
  else
    let s := match first with
      | some _ => s
      | none =>
        let (d, s) := s.draw
        s.report (coreSett core) { kind := 1, unit := 9, core := core,
                                   info := coreDie core * 256 + (Config.sensor d).toNat % 96 }
    .next (s.strikeCore core c)

/-! ## ROLLBACK_RESTORE_DONE (R416, R417) -/

/-- A lease as it stands after a rollback: one that lost its lender since the point keeps to the backing area. -/
def Lease.restored (old : Lease) (now : Option Lease) : Lease :=
  match now with
  | some y =>
    if y.first = old.first && y.revoked && !old.revoked then
      { old with place := (match old.place with | .lender _ => (if y.place = .lost then .lost else .backing) | p => p)
                 lender := none, revoked := true }
    else old
  | none => old

/-- A crew of the snapshot with what a rollback keeps of the present. -/
def Crew.restored (old now : Crew) (stopped : Bool) : Crew :=
  { old with
    leases := old.leases.map (fun p => (p.1, p.2.map (fun x => x.restored (Tab.get none now.leases p.1))))
    threads := old.threads.map (fun p => (p.1, if p.2.st = .parked then { p.2 with st := .ready, wait := 0 } else p.2))
    tlbinv := if old.lastInv = now.lastInv then old.tlbinv ||| now.tlbinv else old.tlbinv
    rcache := []
    stopped := stopped }

/-- Blocks and crews of a core from the journal, for the blocks that still live. -/
def State.restoreBlocks (s : State) (g point : Nat) : State :=
  let swaps := (s.sett (coreSett g)).swaps.map Swap.gangRec
  forEach (s.blocksOn g) s (fun b s =>
    let same (x : Snap) : Bool := x.blocks.any (fun p => p.1 = b && p.2.readyAt = (s.block b).readyAt)
    match s.snapAt g point same with
    | none => s
    | some (_, x) =>
      match x.blocks.find? (fun p => p.1 = b) with
      | none => s
      | some p =>
        let s := s.setBlock b p.2
        let olds := x.crews.filter (fun k => crewBlock k.1 = b)
        let s := forEach ((List.range 32).map (crewKey b)) s (fun k t =>
          if olds.any (fun o => o.1 = k) then t else t.setCrew k Crew.init)
        forEach olds s (fun o t => t.setCrew o.1 (o.2.restored (s.crew o.1) (swaps.contains (blockRec b)))))

/-- Operations of the queue as the snapshot has them; what has been read and what other targets told stays. -/
def State.restoreOps (s : State) (g : Nat) (old : List SeqOp) : List SeqOp :=
  let now := (s.core g).seq
  old.map (fun (o : SeqOp) =>
    let o : SeqOp := { o with stopped := false, parkedOn := none, inputs := [], planes := [], starts := [], skips := [], sums := [],
                              converting := false, shared := [] }
    match now.find? (fun x => x.id = o.id) with
    | some x => { o with params := x.params, gather := x.gather, scatter := x.scatter, targets := x.targets, reached := x.reached,
                         missed := x.missed, reason := x.reason, told := x.told, failed := x.failed, trapped := x.trapped, entry := x.entry }
    | none => { o with targets := (clusterCores g).foldl (fun m c =>
                  if c != g && (s.core c).seq.any (fun x => x.id = o.id) then m ||| 2 ^ (c % 4) else m) 0 })

/-- The core's own units from the snapshot: active set, sequencer, gates; L1 starts empty. -/
def State.restoreCore (s : State) (g : Nat) (old : Core) : State :=
  let s := forEach ((s.core g).l1.map L1Line.line) s (fun l t => t.l1Evict g l)
  let ops := s.restoreOps g old.seq
  let now := s.core g
  let ids := ops.map SeqOp.id
  s.setCore g { now with
    active := old.active
    seq := ops
    score := now.score.filter (fun e => !ids.contains e.copy) ++ old.score.filter (fun e => ids.contains e.copy)
    gate := if old.gate = 1 || old.gate = 2 then old.gate else 0
    idleFrom := none
    reported := []
    restoring := none
    routeFree := s.cycle }

/-- Lenders hold an array for each lease of the cluster's crews that names them. -/
def State.relend (s : State) (g : Nat) : State :=
  let loans : List (Nat × Nat × Nat) := (clusterCores g).flatMap (fun c => (s.crewsOn c).flatMap (fun k =>
    (s.crew k).leases.filterMap (fun p => match p.2 with
      | some y => y.lender.map (fun l => (l, k, p.1))
      | none => none)))
  forEach (clusterCores g) s (fun c t => t.modCore c (fun x => { x with
    lent := (loans.filter (fun l => l.1 = c)).map (fun l => l.2) }))

/-- Copies and groups after a rollback: one that had not started at the point starts again, one that had goes on; what it sent
out of the core since the point is sent again. -/
def State.restoreCopies (s : State) (g : Nat) (x : Snap) : State :=
  let ks := s.crewsOn g
  let s := { s with groups := s.groups.filter (fun p => match p.2 with | some y => !ks.contains y.crew | none => false) }
  let s := forEach x.groups s (fun p t => if ks.contains p.2.crew then { t with groups := Tab.set none t.groups p.1 (some p.2) } else t)
  let olds := x.copies.filter (fun p => ks.contains p.2.crew)
  -- copies that entered after the point leave
  let s := { s with copies := s.copies.filter (fun p => match p.2 with
    | some c => c.core != g || !ks.contains c.crew || olds.any (fun o => o.1 = p.1)
    | none => false) }
  let s := s.modCore g (fun c => { c with copies := (olds.filter (fun o => o.2.started.isNone || (s.copy o.1).isSome)).map Prod.fst })
  forEach olds s (fun p t =>
    match p.2.started, t.copy p.1 with
    | none, none => (t.setCopy p.1 (some p.2)).schedule 1 33 (.copyStart p.1)
    | none, some _ => t
    | some _, some c =>
      if isNear (dDst c.desc) || c.fault.isSome then t
      else
        let flying := (t.reqs.filter (fun q => match q.2 with
          | some r => r.phase = 2 && r.dst = p.1 + 1
          | none => false)).length
        let t := t.unschedule (fun e => match e with | .copyPieceLand id _ => id = p.1 | _ => false)
        (t.setCopy p.1 (some { p.2 with flying := flying, parked := false, missed := c.missed, reached := c.reached, refused := c.refused })).schedule
          1 33 (.copyPieceLand p.1 p.2.piece)
    | some _, none => t)

/-- Requests after a rollback: those that waited in an egress queue stand there again, and so do the loads whose symbols had resolved
while forms of theirs still stood (R101). -/
def State.restoreReqs (s : State) (x : Snap) : State :=
  forEach x.reqs s (fun p t =>
    let c := t.crew p.2.crew
    if c.live && (p.2.queued || c.syms.any (fun y => y.req = p.1 && y.resolved)) then t.setReq p.1 (some p.2) else t)

/-- Collectives that the restored crews have not started leave their slots (R416). -/
def State.restoreColls (s : State) (g : Nat) : State :=
  let sett := coreSett g
  let ks := s.crewsOn g
  forEach (s.sett sett).colls s (fun p s => match p.2 with
    | none => s
    | some c =>
      if !ks.contains c.crew || c.aborted || (s.crew c.crew).colls.contains (c.attempt * 65536 + p.1) then s
      else
        let s := s.unschedule (fun e => match e with
          | .collPacketReceive q grp a n r _ => q = sett && grp = c.group && a = c.attempt && n = c.seq && r = (s.group sett c.group).me
          | _ => false)
        s.modSett sett (fun t => { t with
          colls := Tab.set none t.colls p.1 none
          groups := Tab.modify GroupEntry.init t.groups c.group (fun y =>
            if y.attempt = c.attempt then { y with issued := y.issued - 1, held := y.held ++ c.got.map (fun q => (c.attempt, c.seq, q.1, q.2)) }
            else y) }))

/-- A barrier update applied again: the step of the gang generation that it made stands (R287). -/
def State.redoBarrier (s : State) (g b o : Nat) (u : BarUpdate) : State :=
  let old := s.barrier b o
  let new := old.update u
  let s := s.setBarrier b o new false
  let x := s.record (blockSett b) (blockRec b)
  let s := if new.phase != old.phase && blockId b = 0 && x.gbar != 0xFFFF && 16 * x.gbar = o then
      forEach ((s.gangCrews (blockSett b) (blockRec b)).filter (fun k => (s.crew k).core = g)) s (fun k t => t.modCrew k (fun c =>
        { c with epoch := 0, seq := 0, frontier := { c.frontier with ganggen := x.ganggen, pairs := [] } }))
    else s
  s.notify b o

/-- The outside inputs of R417 applied again, in the order in which they came. -/
def State.redoInput (s : State) (g point : Nat) (i : Redo) : State :=
  match i with
  | .pad start b o n v =>
    if start < point && (s.block b).live && (s.block b).core = g then s.modBlock b (fun y => { y with pad := Memory.writeN y.pad o n v })
    else s
  | .tile start b o n v =>
    if start < point && (s.block b).live && (s.block b).core = g then
      s.modBlock b (fun y => { y with slots := (List.range n).foldl (fun t e =>
        Tab.modify Tile.init t ((o + e) / 16384) (fun (x : Tile) =>
          { x with weights := Memory.write x.weights ((o + e) % 16384) (BitVec.ofNat 8 (v / 256 ^ e)) })) y.slots })
    else s
  | .barrier start b o k n =>
    if start < point && (s.block b).live && (s.block b).core = g then s.redoBarrier g b o (BarUpdate.ofCode k n) else s
  | .response id r =>
    if point ≤ r.issued || r.queued || !(s.crew r.crew).live then s
    else if (s.req id).isSome then s
    else (s.setReq id (some { r with phase := 1, awaiting := false })).finishReq id
  | .copied id c =>
    if (match c.started with | some t => decide (point ≤ t) | none => true) || !(s.crew c.crew).live || (s.copy id).isSome then s
    else match execCopyRetire id (s.setCopy id (some c)) with | .next t => t | _ => s
  | .ended k grp handle =>
    if !(s.crew k).live || !(s.crew k).colls.contains handle then s
    else (s.groupDone grp).modCrew k (fun c => { c with colls := c.colls.filter (fun h => h != handle) })
  | .trap issued k d =>
    if point ≤ issued || !(s.crew k).live then s
    else (s.deferEntry k d).2

/-- A request that had ended for its crew and still awaits acknowledgements ends for it again. -/
def State.endAgain (s : State) (x : Snap) : State :=
  forEach x.reqs s (fun p t => match t.req p.1 with
    | some r => if r.phase = 3 && p.2.phase = 1 then (t.setReq p.1 (some { r with phase := 1 })).finishReq p.1 else t
    | none => t)

/-- The timed steps of a restored crew's threads and symbols. -/
def State.rearm (s : State) (k : Nat) : State :=
  let c := s.crew k
  let s := s.unschedule (fun e => match e with
    | .sleepExpiry j _ | .trywDeadline j _ | .waiterResume j _ | .deferredTrapDelivery j => j = k
    | _ => false)
  let s := s.rearmThreads k
  let s := if c.deferred = [] then s else s.schedule 1 90 (.deferredTrapDelivery k)
  let s := forEach c.syms s (fun y t => t.schedule 0 50 (.symbolResolve k y.num))
  ((s.drainEgress k).settleFences k).checkEnd k

/-- Steps of leases and slots that were under way at the point take the time that they had left. -/
def State.restoreEvents (s : State) (cycle : Nat) (x : Snap) : State :=
  forEach x.events s (fun t u => match t.ev with
    | .multicastEnqueue .. | .amodeStorageEntry .. | .leasePlaced .. | .leaseFillData .. => u.scheduleAt (t.due - cycle) t.key t.ev
    | _ => u)

/-- The state of R414 returns to the rollback point, and the outside inputs of R417 are applied again. -/
def State.rollback (s : State) (g point : Nat) : State :=
  let inputs := (Tab.get [] s.journals g).reverse.flatMap (fun j => if point ≤ j.cycle then j.redo else [])
  let s := s.discardFrom g point
  let s := s.unschedule (fun e => e.ofUnits g (fun k => (s.crew k).core) (fun b => (s.block b).core))
  let s := s.restoreBlocks g point
  match s.snapAt g point (fun _ => true) with
  | none => s.modCore g (fun c => { c with restoring := none })
  | some (cycle, x) =>
    let s := (s.restoreCore g x.core).relend g
    let s := (((s.restoreReqs x).restoreCopies g x).restoreColls g).restoreEvents cycle x
    let s := s.modCore g (fun c => { c with post := c.post.filter (fun p => (s.req p.req).isSome) })
    let s := s.endAgain x
    let s := forEach inputs s (fun i t => t.redoInput g point i)
    let s := forEach (s.crewsOn g) s (fun k t => t.rearm k)
    (s.resumeSeq g (fun _ => true)).schedule 0 38 (.seqStart g)

/-- ROLLBACK_RESTORE_DONE: restoration ends, responses are delivered, issue resumes; the recovery span begins (R420). -/
def execRollbackRestoreDone (core : Nat) (s : State) : Out :=
  let g := s.core core
  match g.restoring with
  | none => .next s
  | some t =>
    if s.cycle < t then .next s
    else
      let s := s.rollback core g.point
      let s := { s with journals := Tab.set [] s.journals core [⟨s.cycle, some (s.snap core), [], 0⟩] }
      .next (s.modCore core (fun g => { g with recoveryLeft := 257 }))

/-- RECOVERY_SPAN_END (R420): the restored core has issued in 256 cycles. -/
def execRecoverySpanEnd (core : Nat) (s : State) : Out :=
  .next (s.modCore core (fun g => { g with recoveryLeft := 0 }))

/-! ## Scrub and calibration -/

/-- A place in a list that a free value picks. -/
def pick? {α : Type} (l : List α) (n : Nat) : Option α := l[n % max 1 l.length]?

/-- An error that is not corrected in a core's unified store (R421, R423): a sector of a block's scratchpad or tile slots, or of an L1 line,
is poisoned and reported; one in a register has reached it, so that its gang consumes it (R422). In an array that no block holds nothing
stays of it. -/
def State.scrubStore (s : State) (core w : Nat) : State :=
  match pick? (s.blocksOn core) w with
  | none => s
  | some b =>
    let x := s.block b
    let told (s : State) (unit : Nat) : State :=
      s.report (coreSett core) { kind := 3, unit := unit, core := core, gangRec := blockRec b, block := blockId b }
    let n := w / 2 ^ 8
    match w / 4 % 4 with
    | 0 => if padBytes x.scratch = 0 then s else told (s.markBlock b [n % (padBytes x.scratch / 64)] true) 1
    | 1 => if x.arrays = 0 then s else told (s.markBlock b [2 ^ 16 + n % (256 * x.arrays)] true) 1
    | 2 => (match pick? (((List.range 32).map (crewKey b)).filter (fun k => (s.crew k).live)) n with
      | some k => s.consumePoison k 1
      | none => s)
    | _ => (match pick? (s.core core).l1 n with
      | some l => told (s.modCore core (fun g => g.l1Mark l.line [n / 2 ^ 16 % 2] true)) 4
      | none => s)

/-- One in a row of an accumulator store (R421). -/
def State.scrubRow (s : State) (core w : Nat) : State :=
  match pick? ((s.blocksOn core).filter (fun b => (s.block b).accum != 0)) w with
  | none => s
  | some b => (s.markBlock b [2 ^ 17 + w / 2 ^ 8 % (s.block b).accum] true).report (coreSett core)
      { kind := 3, unit := 2, core := core, gangRec := blockRec b, block := blockId b }

/-- One in a sibling record: the whole record counts as poisoned (R421). -/
def State.scrubCell (s : State) (sett w : Nat) : State :=
  match pick? ((s.sett sett).cells.filter (fun p => p.2.isSome)) w with
  | none => s
  | some (c, _) =>
    (s.modSett sett (fun t => { t with cells := Tab.modify none t.cells c (fun r => r.map (fun y => { y with bad := true })) })).report sett
      { kind := 3, unit := 6, addr := 4 * c }

/-- One in a directory entry (R421): Invs go to every core of every sett, as for a coarse entry with all bits set, and the entry is freed;
requests that waited in it are taken again. A full collector makes it wait. -/
def State.scrubEntry (s : State) (sett w : Nat) : State :=
  match pick? (s.sett sett).dir w with
  | none => s
  | some (k, e) =>
    let x := sett * 2 ^ 31 + 4 * k
    let all : DirEntry := { e with coarse := true, ptrs := [], groups := 2 ^ 64 - 1 }
    match (s.setDir x all).sendInvs x ((List.range 4).map (x + ·)) none with
    | none => s
    | some s =>
      let s := forEach e.queue (s.setDir x DirEntry.init) (fun q t => t.schedule 0 homeKey q.2)
      s.report sett { kind := 3, unit := 7, addr := sectorAddr x }

/-- PATROL_SCRUB (R421, R423, R424): what a scrub or a read of the storage finds, and where, is left open (log 29). A corrected error is
counted; an error that is not corrected has the outcome of its structure. -/
def execPatrolScrub (sett : Nat) (s : State) : Out :=
  let (d, s) := s.draw
  let w := (Config.scrubAt d).toNat
  let a := w % 2 ^ 37 / 64 * 64
  let core := 128 * sett + w / 2 ^ 37 % 128
  let w := w / 2 ^ 44
  .next (match (Config.scrub d).toNat with
    | 1 => s.reportCorrected sett ([1, 2, 4, 5, 6, 7].getD (w % 7) 8) (if 5 < w % 7 then a else 0) core
    | 2 => (s.markPoison sett a 64 true).report sett { kind := 3, unit := 8, addr := a }
    | 3 => s.scrubStore core w
    | 4 => s.scrubRow core w
    | 5 => if s.llcHit sett a then (s.markPoison sett a 64 true).report sett { kind := 3, unit := 5, addr := a } else s
    | 6 => s.scrubCell sett w
    | 7 => s.scrubEntry sett w
    -- parity-protected logic: a strike on the core
    | 8 =>
      if (s.core core).fenced then s
      else (s.report sett { kind := 1, unit := 3, core := core }).strikeCore core s.cycle
    -- an L1 tag, an entry of a TLB or of the walk cache: it is invalidated, and fetched again when it is needed
    | 9 => (match pick? (s.core core).l1 w with
      | some l => (s.l1Evict core l.line).reportCorrected sett 4 0 core
      | none => s)
    | 10 => s.modCore core (fun g => { g with tlb := g.tlb.eraseIdx (w % max 1 g.tlb.length) })
    | 11 => s.modSett sett (fun t => { t with stlb := t.stlb.eraseIdx (w % max 1 t.stlb.length) })
    | 12 => s.modSett sett (fun t => { t with wcache := t.wcache.eraseIdx (w % max 1 t.wcache.length) })
    | _ => s)

/-- An array of the core is within an array step (R199). -/
def State.convertingOn (s : State) (core : Nat) : Bool := (s.core core).seq.any (fun o => o.state = .running && o.converting)

/-- CONVERTER_CALIBRATION (R432, R433): a converter that cannot be trimmed retires its array, and a report names it. It acts between two
array steps (R199), and wakes a gated core (R262). -/
def execConverterCalibration (core : Nat) (array : Nat) (s : State) : Out :=
  if s.convertingOn core then .next (s.schedule 1 97 (.converterCalibration core array))
  else
  let (d, s) := (s.wakeCore core).draw
  let s := s.modCore core (fun g => { g with calibrated := Tab.set 0 g.calibrated array s.cycle })
  .next (if Config.drift d then
      (s.modCore core (fun g => { g with retired := g.retired + 1 })).report (coreSett core)
        { kind := 0x0A, unit := 0x0A, core := core, info := array }
    else s)

/-- CALIBRATION_PAUSE (R432): 512 cycles between two steps of an array that has been busy for 2^37; the operations of the core
take their next steps that much later. An array whose last calibration or pause is less than 2^37 cycles past, or of a core on which no
operation runs, has not been busy for so long (log 130). -/
def execCalibrationPause (core : Nat) (array : Nat) (s : State) : Out :=
  let last := max (s.core core).lastCal (Tab.get 0 (s.core core).calibrated array)
  if decide (s.cycle < last + 2 ^ 37) || !(s.core core).seq.any (fun o => o.state = .running) then .next s
  else if s.convertingOn core then .next (s.schedule 1 97 (.calibrationPause core array))
  else
  let s := s.wakeCore core
  let busy := (s.core core).seq.filter (fun o => o.state = .running)
  let later (t : Timed) : Timed := if busy.any (fun o => opEvent core o.id t.ev) then { t with due := t.due + 512 } else t
  let agenda := s.agenda.foldl (fun (l : List Timed) (t : Timed) => insertTimed (later t) l) []
  .next ({ s with agenda := agenda }.modCore core (fun g => { g with calibrated := Tab.set 0 g.calibrated array s.cycle }))

end Sys2Proof.Machine
end

