-- ==== Sys2Proof/Machine/Links.lean ====
section
/-! DEFINITION. Plagil links (spec/17, R376 to R378; spec/24, R450) and the loss of the host link (R421). -/

namespace Sys2Proof.Machine

/-- What waited for room in the replay buffer goes out, in order. -/
def State.drainLink (s : State) (l : Nat) : State :=
  let w := (s.link l).waiting
  forEach w (s.setLink l { s.link l with waiting := [] }) (fun m t => t.sendFlit l m.1 m.2.1 m.2.2)

/-- Flits up to `ack` have arrived: they leave the replay buffer, and NAKs no longer follow one another. -/
def State.acked (s : State) (l ack : Nat) : State :=
  let k := s.link l
  let dist (q : Nat) : Nat := (ack + 4096 - q) % 4096
  let left := k.replay.filter (fun f => decide (256 ≤ dist f.1))
  if left.length = k.replay.length then s
  else (s.setLink l { k with replay := left, naks := 0 }).drainLink l

/-- A flit as FLIT_RECEIVE's operand gives it: the bits below its seq (R376). -/
def flitAck (p : Nat) : Nat := bits p 467 456
def flitType (p : Nat) : Nat := bits p 455 452

/-! ## Messages of the other module (R353, R364, R376 to R378; their layout is the model's, log 30) -/

/-- The memory that a message names: sett and address; none where the export does not stand or ends before (R351, R352). -/
def State.exportOf (s : State) (p : Nat) : Option (Nat × Nat) :=
  let q := bits p 439 432
  let addr := bits p 431 368
  let base := (s.sett q).base 4
  let e := s.hbmRead q (base + 64 * (addr / 2 ^ 40 % 512)) 64
  if 8 ≤ q || base = 0 || bits e 1 0 != 1 || decide (bits e 447 384 ≤ addr % 2 ^ 40) then none
  else some (q, bits e 511 448 + addr % 2 ^ 40)

/-- New requests over links are taken in: not from the acceptance of a HIBERNATE on (R435). -/
def State.takesRequests (s : State) : Bool := s.hib.step = 0 && (s.sett 0).span != .suspension

/-- A crew key that no crew has: requests of link agents carry it. -/
def agentCrew (link : Nat) : Nat := crewKey (blockKey 8 link 0) 0

/-- An access of the other module at its home here: a put, an atomic, a reconcile or a read; an export that is gone answers with fault
kind 8 (R352, R353). -/
def State.accessFrom (s : State) (l p : Nat) : State :=
  let v := bits p 367 0
  let n := bits v 351 344
  let op := bits v 335 328
  let kind : ReqKind := match bits p 447 440 with
    | 1 => .store
    | 2 => .atom op false true false
    | 3 => .rcn op false
    | _ => .load
  match (if s.takesRequests then s.exportOf p else none) with
  | none => s.toLink (bits p 439 432) l 12 (bits p 431 368) (bits v 343 336 * 2 ^ 336)
  | some (q, a) =>
    let (id, s) := s.fresh
    let x : LaneReq := { lane := 0, va := 0, target := some { place := .hbm q a }, data := bits v 319 0, out := true, free := true }
    let r : Req := { kind := kind, crew := agentCrew l, pc := 0, size := max 1 (min 32 n), lanes := [x], issued := s.cycle, phase := 2,
                     agent := 1 + l, message := p }
    (s.setReq id (some r)).schedule 0 homeKey (.wr q id)

/-- A link agent has acknowledged an Inv, or will not any more: its count is 1 (R364, R378). -/
def State.agentAck (s : State) (h collector : Nat) : State :=
  match Tab.get none (s.sett h).collectors collector with
  | none => s
  | some k => (s.setCollector h collector (some { k with acks := k.acks ++ [1] })).schedule 0 homeKey (.invack h collector)

/-- An Inv of the other module's home: the ports of the setts that hold the sector apply it, then one InvAck goes back (R378). -/
def State.invFrom (s : State) (l p : Nat) : State :=
  let x := s.foreignSector l (bits p 439 432) (bits p 431 368)
  let s := forEach (s.cores.map Prod.fst) s (fun g t => t.invSector g x)
  let s := s.setLink l { s.link l with loaded := (s.link l).loaded.filter (fun e => e.1 != x) }
  if bits p 335 328 = 1 then s.toLink (bits p 439 432) l 6 (bits p 431 368) (bits p 327 0) else s

/-- The windows that map an export of the other module become stale (R352). -/
def State.staleFrom (s : State) (l p : Nat) : State :=
  let h := (s.link l).peer * 2 ^ 12 + bits p 439 432 % 8 * 2 ^ 9 + bits p 431 368 / 2 ^ 40 % 2 ^ 9
  let stale (e : Nat × Window) : Nat × Window := if e.2.st = 1 && e.2.handle / 2 ^ 40 = h then (e.1, { e.2 with st := 2 }) else e
  { s with setts := s.setts.map (fun (q : Nat × Sett) => (q.1, { q.2 with windows := q.2.windows.map stale })) }

/-- A piece of a collective packet from another module: with the last one the engine of the named sett receives the packet (R380). -/
def State.packetFrom (s : State) (l p : Nat) : State :=
  let q := bits p 439 432
  let a := bits p 431 368
  let k := s.link l
  let common := p / 2 ^ 352 * 2 ^ 95 + bits p 350 256
  let got := ((k.parts.find? (fun e => e.1 = common)).map Prod.snd).getD [] ++ [p % 2 ^ 256]
  let rest := k.parts.filter (fun e => e.1 != common)
  if bits p 351 351 = 0 then s.setLink l { k with parts := rest ++ [(common, got)] }
  else if 8 ≤ q then s.setLink l { k with parts := rest }
  else (s.setLink l { k with parts := rest }).schedule 0 35 (.collPacketReceive q (a % 2 ^ 8) (a / 2 ^ 8 % 2 ^ 16) (bits p 350 256)
    (bits p 363 352) (got.foldr (fun x v => x + 2 ^ 256 * v) 0))

/-- A message from a link. Data and completions bring nothing that the model's own steps wait for (log 20); a completion that tells of a
refusal is reported in the sett that wrote (R292). -/
def State.fromLink (s : State) (l p : Nat) : State :=
  let q := bits p 439 432
  match bits p 447 440 with
  | 1 | 2 | 3 | 11 => s.accessFrom l p
  | 4 => (match s.exportOf p with
    | some (q, a) => s.schedule 0 homeKey (.evict q (sectorOf q a) (128 * q + l))
    | none => s)
  | 5 => s.invFrom l p
  | 6 =>
    let c := bits p 327 0
    if (s.link l).invs.contains (q, c) then
      (s.setLink l { s.link l with invs := (s.link l).invs.erase (q, c) }).agentAck q c
    else s
  | 10 => s.setLink l { s.link l with loaded := (s.link l).loaded.filter (fun e => e.1 != s.foreignSector l q (bits p 431 368)) }
  | 7 => (match (if s.takesRequests then s.exportOf p else none) with
    | some (q, a) => (s.setLink l { s.link l with asked := (s.link l).asked ++ [(sectorOf q a, bits p 431 368)] }).schedule 0 homeKey
        (.gets q (sectorOf q a) (128 * q + l))
    | none => s.toLink q l 12 (bits p 431 368) 0)
  | 9 =>
    if bits p 335 328 = 1 && decide (bits p 343 336 < 8) then
      s.report (bits p 343 336) { kind := 0x0B, unit := 6, addr := bits p 318 32, info := bits p 31 0 }
    else s
  | 12 | 14 => s.staleFrom l p
  | 13 => s.packetFrom l p
  | 15 =>
    let a := bits p 431 368
    if 8 ≤ q then s else s.schedule 0 36 (.abortTokenReceive q (a % 2 ^ 8) (a / 2 ^ 8 % 2 ^ 16))
  | _ => s

/-- FLIT_RECEIVE (R377): an intact flit in sequence is delivered; any other is discarded, with a NAK unless one is on its
way. Idle flits carry the next sequence number unchanged. -/
def execFlitReceive (link : Nat) (sequence : Nat) (intact : Nat) (payload : Nat) (s : State) : Out :=
  let k := s.link link
  if k.st = 0 || 18 ≤ link then .next s
  else
    let good := intact != 0 && decide (flitType payload ≤ 4)
    if good && sequence = k.recvSeq then
      let s := s.setLink link { k with recvSeq := if flitType payload = 0 then k.recvSeq else (k.recvSeq + 1) % 4096, discarding := false }
      let s := s.acked link (flitAck payload)
      .next (if flitType payload = 1 || flitType payload = 2 || flitType payload = 3 then s.fromLink link (payload % 2 ^ 448) else s)
    else if good && k.discarding then .next s
    else .next ((s.setLink link { k with discarding := true }).send (.nak link k.recvSeq))

/-- About 40 µs at 1.7 GHz (R377). -/
def retrainTime : Nat := 68000

/-- NAK_RECEIVE (R377): the sender replays from the named flit; sixteen NAKs in a row make the link retrain. -/
def execNakReceive (link : Nat) (sequence : Nat) (s : State) : Out :=
  let s := s.acked link ((sequence + 4095) % 4096)
  let k := s.link link
  if k.st != 1 || 18 ≤ link then .next s
  else if 16 ≤ k.naks + 1 then
    let (d, s) := s.draw
    let ok := if Config.retrained d then 1 else 0
    .next ((s.setLink link { k with st := 2, naks := 0 }).schedule retrainTime 97 (.linkRetrainDone link ok))
  else
    .next (forEach k.replay (s.setLink link { k with naks := k.naks + 1 }) (fun f t => t.send (.flit link (wholeFlit f.2))))

/-- A lane's access goes over a link. -/
def State.overLink (s : State) (r : Req) (l : Nat) (x : LaneReq) : Bool :=
  match x.target with
  | some t => (match t.place with | .remote w _ => s.windowLink (crewSett r.crew) w = l | _ => false)
  | none => false

/-- Requests in flight over a link that is down complete with fault kind 8 (R377). -/
def State.failLink (s : State) (l : Nat) : State :=
  forEach s.reqs s (fun p s => match p.2 with
    | none => s
    | some r =>
      let lanes := r.lanes.filter (fun x => x.out && x.free && !x.back && (!x.done || r.kind.returns) && s.overLink r l x)
      if lanes = [] then s
      else if r.phase = 2 then (match lanes with | x :: _ => s.putFault p.1 r x 8 | [] => s)
      else forEach lanes s (fun x t => match t.req p.1 with
        | some q => t.lateFault p.1 q x 8
        | none => t))

/-- The other module's end is gone: the Invs that it owes are answered at the home's own port, what it held and what was held of it is
forgotten (R364, R377). -/
def State.loseAgent (s : State) (l : Nat) : State :=
  let k := s.link l
  let s := s.setLink l { k with invs := [], asked := [], loaded := [], parts := [] }
  let s := forEach k.loaded s (fun x t => forEach (t.cores.map Prod.fst) t (fun g u => u.invSector g x.1))
  forEach k.invs s (fun e t => t.agentAck e.1 e.2)

/-- LINK_RETRAIN_DONE (R377): replay continues, or the link is down and vector 3 is raised. -/
def execLinkRetrainDone (link : Nat) (success : Nat) (s : State) : Out :=
  let k := s.link link
  if k.st != 2 then .next s
  else if success != 0 then
    let s := s.setLink link { k with st := 1, naks := 0 }
    .next ((forEach k.replay s (fun f t => t.send (.flit link (wholeFlit f.2)))).drainLink link)
  else
    let s := s.setLink link { k with st := 0, naks := 0, replay := [], waiting := [], discarding := false }
    let s := forEach (List.range 8) s (fun q t => t.raise q 3)
    .next ((s.failLink link).loseAgent link)

/-- LINK_BRINGUP (R378): a peer that authenticates becomes the module of the link's handles; another one is refused. -/
def execLinkBringup (link : Nat) (peer : Nat) (success : Nat) (s : State) : Out :=
  let k := s.link link
  .next (if k.st != 0 || 18 ≤ link then s
    else if success != 0 then s.setLink link { Link.init with st := 1, peer := peer, key := k.key + 1, latency := k.latency }
    else s.setLink link { Link.init with key := k.key, latency := k.latency })

/-- LINK_KEY_UPDATE (R450). -/
def execLinkKeyUpdate (link : Nat) (s : State) : Out :=
  let k := s.link link
  .next (if k.st = 0 then s else s.setLink link { k with key := k.key + 1 })

/-- HOST_LINK_DOWN (R421): an error that replay does not correct takes the host link down. -/
def execHostLinkDown (s : State) : Out := .next { s with hostUp := false }

end Sys2Proof.Machine
end

