-- ==== Sys2Proof/Machine/Quiesce.lean ====
section
/-! DEFINITION. HIBERNATE (spec/23, R434 to R442): the quiesce, the cut, and the image byte for byte. -/

namespace Sys2Proof.Machine

/-! ## Extents (R434) -/

/-- Entries of an extent list from address `a` up, to the one of length 0. -/
def extentList (m : Memory) : Nat → Nat → List (Nat × Nat)
  | 0, _ => []
  | n + 1, a =>
    let len := Memory.readN m (a + 8) 8
    if len = 0 then [] else (Memory.readN m a 8, len) :: extentList m n (a + 16)

def State.extents (s : State) (a : Nat) : List (Nat × Nat) := extentList s.hostMem (s.hostMem.length + 1) a

def extentsOk (l : List (Nat × Nat)) : Bool := l.all (fun e => e.1 % 4096 = 0 && e.2 % 4096 = 0)

def extentsLength (l : List (Nat × Nat)) : Nat := l.foldl (fun n e => n + e.2) 0

/-! ## HIBERNATE and the quiesce (R435) -/

/-- Placed gangs that stand: neither swapped out already nor still being loaded. -/
def State.standing (s : State) (sett : Nat) : List Nat :=
  ((s.sett sett).records.filter (fun p => p.2.st = .placed && p.2.restoring = 0 &&
    !(s.sett sett).swaps.any (fun w => w.gangRec = p.1))).map Prod.fst

/-- Every placed gang begins to be swapped out. -/
def State.preempt (s : State) : State :=
  forEach (List.range 8) s (fun q t => forEach (t.standing q) t (fun r u => u.beginSwap q r none))

/-- HIBERNATE (R434, R435): accepted in service, and in suspension for another image of the same cut. -/
def execHibernate (sett : Nat) (s : State) : Out :=
  commandStep sett (fun a v =>
    if sett != 0 || s.hib.step != 0 then .next (s.finishCommand sett 4 0)
    else if v != 0 || a % 16 != 0 || !extentsOk (s.extents a) then .next (s.finishCommand sett 2 0)
    else match (s.sett sett).span with
      | .startUp => .next (s.finishCommand sett 3 0)
      | .suspension => .next ({ s with hib := { s.hib with step := 6, extents := a } }.schedule 1 89 .hibernateImageDone)
      | .service =>
        let s := { s with hib := { step := 1, accepted := s.cycle, extents := a } }
        .next ((s.preempt.schedule 1 89 .quiescePreemptDone).schedule (2 ^ 24) 89 .quiesceCollectiveTimeout)) s

/-- Some gang of the module still holds arrays. -/
def State.anyPlaced (s : State) : Bool :=
  s.setts.any (fun p => p.2.swaps != [] || p.2.records.any (fun r => r.2.st = .placed))

/-- QUIESCE_PREEMPT_DONE: with the last swap-out the collectives remain. -/
def execQuiescePreemptDone (s : State) : Out :=
  if s.hib.step != 1 then .next s
  else if s.anyPlaced then
    .next (if s.agenda.any (fun t => t.ev = .quiescePreemptDone) then s.preempt else s.preempt.schedule 64 89 .quiescePreemptDone)
  else .next ({ s with hib := { s.hib with step := 2 } }.schedule 1 89 .quiesceOutwardDone)

/-- Running collectives of a sett: (group, attempt). -/
def Sett.running (t : Sett) : List (Nat × Nat) :=
  (t.colls.filterMap (fun p => match p.2 with
    | some c => if c.aborted then none else some (c.group, c.attempt)
    | none => none)).eraseDups

/-- QUIESCE_COLLECTIVE_TIMEOUT: 2^24 core cycles after the acceptance every collective that still runs is aborted. -/
def execQuiesceCollectiveTimeout (s : State) : Out :=
  if s.hib.step = 0 || 2 < s.hib.step || s.cycle < s.hib.accepted + 2 ^ 24 then .next s
  else .next (forEach (List.range 8) s (fun q t => forEach (t.sett q).running t (fun c u =>
    (u.abortAttempt q c.1 c.2).sendTokens q c.1 c.2)))

/-- The Outward step has ended: no request is on its way, reorder buffers and collectors are empty. -/
def State.outwardDone (s : State) : Bool :=
  s.reqs.all (fun p => match p.2 with | some r => r.performed && !r.awaiting && r.phase != 2 | none => true) && s.copies = [] &&
  s.invs = [] && s.setts.all (fun p => p.2.colls = [] && p.2.areas.all (fun a => a.2.pending = []) && p.2.collectors = []) &&
  s.links.all (fun p => p.2.st = 0 || decide (p.2.loaded = []))

/-- Each link agent evicts the sectors that its setts loaded; they stand in `loaded` until the EvAcks. -/
def State.evictLinks (s : State) : State :=
  forEach s.links s (fun l t => forEach l.2.loaded t (fun x u => u.toLink (foreignAt x.1).1 l.1 4 (foreignAt x.1).2 0))

/-- Homes take back what is owned, sharers are invalidated, cores empty their L1 (the Recall step). -/
def State.takeBack (s : State) : State :=
  let s := forEach s.cores s (fun p t => forEach (p.2.l1.map L1Line.line) t (fun l u => u.l1Evict p.1 l))
  forEach s.setts s (fun p t =>
    let xs := p.2.dir.flatMap (fun d => (List.range 4).map (fun i => p.1 * 2 ^ 31 + d.1 * 4 + i))
    let t := t.recall xs
    forEach (xs.filter (fun x => t.sectorState x = 1)) t (fun x u => u.invalidateShared x))

/-- QUIESCE_OUTWARD_DONE: collectives have ended and nothing is on its way outward; the Recall step begins. -/
def execQuiesceOutwardDone (s : State) : Out :=
  if s.hib.step = 2 then
    if s.setts.any (fun p => p.2.running != []) then .next (s.schedule 64 89 .quiesceOutwardDone)
    else .next ({ s.evictLinks with hib := { s.hib with step := 3 } }.schedule 1 89 .quiesceOutwardDone)
  else if s.hib.step != 3 then .next s
  else if !s.outwardDone then .next (s.schedule 64 89 .quiesceOutwardDone)
  else .next ({ s.takeBack with hib := { s.hib with step := 4 }, portLines := [] }.schedule 64 89 .quiesceRecallDone)

/-- QUIESCE_RECALL_DONE: directories, L1 partitions and sharer states are empty; the module freezes at the next fabric cycle. -/
def execQuiesceRecallDone (s : State) : Out :=
  if s.hib.step != 4 then .next s
  else if s.setts.all (fun p => p.2.dir = [] && p.2.victims = [] && p.2.collectors = []) &&
      s.cores.all (fun p => p.2.l1 = [] && p.2.sectors = []) then
    .next ({ s with hib := { s.hib with step := 5 } }.schedule 1 89 .quiesceFreeze)
  else .next (s.takeBack.schedule 64 89 .quiesceRecallDone)

/-- QUIESCE_FREEZE: the cut; the release-tag stores are cleared. -/
def execQuiesceFreeze (s : State) : Out :=
  if s.hib.step != 5 then .next s
  else
    let clear (p : Nat × Sett) : Nat × Sett := (p.1, { p.2 with tags := [] })
    .next ({ s with setts := s.setts.map clear, hib := { s.hib with step := 6, cut := s.cycle } }.schedule 1 89 .hibernateImageDone)

/-! ## The image (R438 to R442) -/

/-- A string of bytes from its fields; bytes that no field names are zero. -/
def fieldBytes (l : List Field) : Memory := l.foldl (fun m f => Memory.writeN m f.1 f.2.1 f.2.2) []

/-- TIMEHI:TIMELO of a sett at the cut. -/
def State.cutTime (s : State) (sett : Nat) : Nat := (((s.hib.cut : Int) - (s.sett sett).timeZero) % 2 ^ 64).toNat

/-- Virtual clusters of a sett none of whose cores is fenced (R443). -/
def State.goodClusters (s : State) (sett : Nat) : List Nat :=
  (List.range 32).filter (fun v => (coresOf sett v).all (fun g => !(s.core g).fenced))

/-- Good clusters and least good arrays of a sett (R443). -/
def State.goodUnits (s : State) (sett : Nat) : Nat × Nat :=
  let vs := s.goodClusters sett
  (vs.length, (vs.flatMap (coresOf sett)).foldl (fun m g => min m (128 - (s.core g).retired)) 128)

def Window.word (w : Window) : Nat :=
  w.handle * 2 ^ 448 + w.size * 2 ^ 384 + w.link * 2 ^ 8 + (if w.r then 2 ^ 7 else 0) + (if w.p then 2 ^ 6 else 0) +
  (if w.a then 2 ^ 5 else 0) + w.st

def GroupEntry.word (x : GroupEntry) : Nat :=
  x.ranks * 2 ^ 64 + x.attempt * 2 ^ 48 + x.me * 2 ^ 36 + x.n * 2 ^ 24 + (if x.v then 1 else 0)

def Area.word (x : Area) : Nat :=
  x.base * 2 ^ 192 + x.size * 2 ^ 128 + x.next % 2 ^ 64 * 2 ^ 64 + x.members * 2 ^ 8 + x.seqr * 2 ^ 5 + (if x.v then 1 else 0)

/-- The sectors of a sett's HBM that are poisoned, by address ÷ 64. -/
def State.poisonedIn (s : State) (sett : Nat) : List Nat :=
  (s.poison.filter (fun p => p.1 / 2 ^ 31 = sett && p.2)).map (fun p => p.1 % 2 ^ 31)

/-- Place of a launch among the running launches. -/
def Sett.launchPlace (t : Sett) (i : Nat) : Nat := (t.launches.findIdx? (fun l => l.index = i)).getD 0

/-- The sett state section (R442). Bits 63:52 of a launch record's word and byte 6 of a running launch have no name there; they
keep the record's launch and whether a gang of it was abandoned (log 32). -/
def State.settSection (s : State) (q : Nat) : Memory × Nat :=
  let t := s.sett q
  let L := t.launches.length
  let ps := s.poisonedIn q
  let fields : List Field :=
    [(0, 2, t.devgen), (4, 4, s.mapgen), (8, 8, s.cutTime q), (16, 2, t.base 7 / 2 ^ 26), (20, 4, L), (24, 4, ps.length)] ++
    (List.range 9).map (fun i => (0x40 + 8 * i, 8, t.base i)) ++
    t.windows.map (fun p => (0x1000 + 64 * p.1, 64, p.2.word)) ++
    t.groups.map (fun p => (0x5000 + 64 * p.1, 64, p.2.word)) ++
    t.areas.map (fun p => (0x9000 + 32 * p.1, 32, p.2.word)) ++
    t.clusters.map (fun p => (0x9800 + 8 * p.1, 8, match p.2.holder with
      | some h => h + (if p.2.leaving then 2 else 1) * 2 ^ 14
      | none => 0)) ++
    t.records.map (fun p => (0xA000 + 8 * p.1, 8, (match p.2.st with
      | .swapped => 1 + p.2.image
      | .awaiting => 2
      | _ => 0) + (if p.2.st = .free then 0 else t.launchPlace p.2.launch % 4096 * 2 ^ 52))) ++
    t.queues.map (fun p => (0xE000 + 8 * p.1, 8,
      (match p.2.launch.bind (fun i => t.launches.find? (fun l => l.index = i)) with
        | some l => l.placed + 2 ^ 24
        | none => 0) + min (s.hib.cut - p.2.since) (2 ^ 32 - 1) * 2 ^ 32)) ++
    t.records.map (fun p => (0x2E000 + 128 * p.1, 128, p.2.word)) ++
    (t.launches.zip (List.range L)).map (fun p => (0x6E000 + 16 * p.2, 16,
      p.1.at_ % 2 ^ 32 + p.1.queue * 2 ^ 32 + (if p.1.failed then 2 ^ 48 else 0) + p.1.ended * 2 ^ 64)) ++
    (ps.zip (List.range ps.length)).map (fun p => (0x6E000 + 16 * L + 8 * p.2, 8, p.1 * 64))
  (fieldBytes fields, 0x6E000 + 16 * L + 8 * ps.length)

/-- A sibling-store record (R289); siblings beyond the third are named by the index of their first chunk, which the model
numbers by the record (log 31). -/
def CellRec.word (x : CellRec) (cell i : Nat) : Nat :=
  let sib (j : Nat) : Nat := match x.sibs[j]? with | some v => v.2.toNat * 2 ^ 96 + v.1.word | none => 0
  cell * 2 ^ 590 + x.sibs.length * 2 ^ 582 + x.pstamp.word * 2 ^ 480 + sib 0 * 2 ^ 352 + sib 1 * 2 ^ 224 + sib 2 * 2 ^ 96 +
  (if 3 < x.sibs.length then i + 1 else 0) * 2 ^ 64

/-- The sibling section (R441). The spec gives the Mire no place in HBM: behind the records stand, for each, the home's
generation at its last write and its siblings beyond the third (log 31). -/
def State.cellSection (s : State) (q : Nat) : Memory × Nat :=
  let cs := (s.sett q).cells.filterMap (fun p => p.2.map (fun x => (p.1, x)))
  let n := cs.length
  let (m, top) := (cs.zip (List.range n)).foldl (fun (acc : List Field × Nat) p =>
    let more := p.1.2.sibs.drop 3
    (acc.1 ++ [(64 + 80 * p.2, 80, p.1.2.word p.1.1 p.2), (acc.2, 4, p.1.2.gen)] ++
      (more.zip (List.range more.length)).map (fun v => (acc.2 + 4 + 16 * v.2, 16, v.1.2.toNat * 2 ^ 96 + v.1.1.word)),
     acc.2 + 4 + 16 * more.length)) (([(0, 8, n)] : List Field), 64 + 80 * n)
  (fieldBytes m, top)

/-- A byte of HBM as read through its key slot: one whose key is gone decrypts to a free byte (R441, R453). A poisoned sector
reads as zeros. -/
def State.imageByte (s : State) (q d : Nat) (p : Nat × Byte) : Byte :=
  let e := Tab.get 0 s.sealed (p.1 / 64)
  if Tab.get false s.poison (p.1 / 64) then 0
  else if e = 0 || (s.sett q).keys.any (fun k => k.2 = some (e - 1)) then p.2
  else Config.decrypted d p.1

/-- Listed bytes of a sett's HBM by sett-physical address, as the image has them. -/
def State.settBytes (s : State) (q d : Nat) : Memory :=
  ((s.hbm.filter (fun p => p.1 / 2 ^ 37 = q)).map (fun p => (p.1 % 2 ^ 37, s.imageByte q d p))).filter (fun p => p.2 != 0)

/-- 64 KiB units that hold a non-zero byte. -/
def unitsOf (m : Memory) : List Nat := (m.map (fun p => p.1 / 65536)).eraseDups

/-- The HBM map and the HBM data sections (R441). -/
def mapSection (m : Memory) : Memory × Nat :=
  (((unitsOf m).map (fun u => (u / 8, u % 8))).foldl (fun (t : Memory) x =>
    Memory.write t x.1 (Memory.read t x.1 ||| BitVec.ofNat 8 (2 ^ x.2))) [], 262144)

def dataSection (m : Memory) : Memory × Nat :=
  let us := unitsOf m
  (m.map (fun p => (us.idxOf (p.1 / 65536) * 65536 + p.1 % 65536, p.2)), us.length * 65536)

/-- The package section (R441). -/
def State.packageSection (s : State) : Memory × Nat :=
  (fieldBytes ((0, 2, (s.sett 0).base 8) :: (List.range 18).map (fun k =>
    let l := s.link k
    (64 + 8 * k, 8, l.peer % 4096 + (if l.st = 1 then 2 ^ 16 else 0)))), 208)

/-- Sections in their order: type, sett, bytes, length (R440). -/
def State.sections (s : State) (d : Nat) : List (Nat × Nat × Memory × Nat) :=
  (1, 0, s.packageSection) :: (List.range 8).flatMap (fun q =>
    let m := s.settBytes q d
    [(2, q, s.settSection q), (3, q, s.cellSection q), (4, q, mapSection m), (5, q, dataSection m)])

/-- Up to the next 4 KiB boundary. -/
def page (n : Nat) : Nat := (n + 4095) / 4096 * 4096

/-- Offsets of the sections, and the length of the image. -/
def placeSections : Nat → List (Nat × Nat × Memory × Nat) → List (Nat × Nat × Nat × Memory × Nat) × Nat
  | o, [] => ([], o)
  | o, (t, q, m, n) :: l =>
    let (r, top) := placeSections (page (o + n)) l
    ((o, t, q, m, n) :: r, top)

/-- The manifest below its signature (R439). -/
def State.manifest (s : State) (secs : List (Nat × Nat × Nat × Memory × Nat)) (size : Nat) : Memory :=
  fieldBytes ([(0, 4, 0xB1), (4, 4, 1), (8, 8, size), (0x10, 8, s.cutTime 0), (0x18, 2, secs.length), (0x1A, 2, (s.sett 0).base 8)] ++
    (List.range 8).map (fun q => (0x20 + 2 * q, 2, (s.goodUnits q).1 + 256 * (s.goodUnits q).2)) ++
    (secs.zip (List.range secs.length)).flatMap (fun p =>
      let (o, t, q, m, n) := p.1
      [(0x40 + 96 * p.2, 32, o + n * 2 ^ 64 + t * 2 ^ 128 + q * 2 ^ 136), (0x60 + 96 * p.2, 64, (Config.digest m n).toNat)]) ++
    [(0xD80, 57, Config.identity.toNat)])

/-- The image: its bytes and its length. -/
def State.image (s : State) (d : Nat) : Memory × Nat :=
  let (secs, size) := placeSections 4096 (s.sections d)
  let head := s.manifest secs size
  let sig := Config.signature Config.identity.toNat (Memory.readN head 0 0xE00)
  let head := Memory.writeN head 0xE00 114 sig.toNat
  (head ++ secs.flatMap (fun p => p.2.2.2.1.map (fun b => (p.1 + b.1, b.2))), size)

/-- Write a string of bytes of a length over extents in host memory. -/
def writeExtents (bytes : Memory) (size : Nat) (host : Memory) : Nat → List (Nat × Nat) → Memory
  | _, [] => host
  | at_, (a, n) :: l =>
    let n' := min n (size - at_)
    let cleared := host.filter (fun p => decide (p.1 < a) || decide (a + n' ≤ p.1))
    let mine := bytes.filter (fun p => decide (at_ ≤ p.1) && decide (p.1 < at_ + n'))
    writeExtents bytes size (mine.foldl (fun h p => Memory.write h (a + (p.1 - at_)) p.2) cleared) (at_ + n) l

/-- HIBERNATE_IMAGE_DONE (R435, R438): the image stands in the extents and every sett is suspended; extents that are too short
give status 4 and the bytes needed. -/
def execHibernateImageDone (s : State) : Out :=
  if s.hib.step != 6 then .next s
  else
    let (d, s) := s.draw
    let (bytes, size) := s.image d
    let l := s.extents s.hib.extents
    let short := decide (extentsLength l < size)
    let s := if short then s else { s with hostMem := writeExtents bytes size s.hostMem 0 l }
    let suspend (p : Nat) (t : State) : State := t.modSett p (fun x => { x with span := .suspension })
    let s := forEach (List.range 8) { s with hib := { s.hib with step := 0 } } suspend
    .next (s.finishCommand 0 (if short then 4 else 0) size)

end Sys2Proof.Machine
end

