-- ==== Sys2Proof/Machine/Wake.lean ====
section
/-! DEFINITION. WAKE (spec/23, R443 to R446): the checks of an image and the load of the module from it. -/

namespace Sys2Proof.Machine

/-! ## The image as read -/

/-- The string of bytes that extents hold. -/
def readExtents (host : Memory) : Nat → List (Nat × Nat) → Memory
  | _, [] => []
  | at_, (a, n) :: l =>
    (host.filter (fun p => decide (a ≤ p.1) && decide (p.1 < a + n))).map (fun p => (at_ + (p.1 - a), p.2)) ++ readExtents host (at_ + n) l

/-- Bytes of a part, counted from its own beginning. -/
def partOf (m : Memory) (o n : Nat) : Memory :=
  (m.filter (fun p => decide (o ≤ p.1) && decide (p.1 < o + n))).map (fun p => (p.1 - o, p.2))

/-- A section of an image: type, sett, bytes, length, and the digest that its entry gives. -/
structure Section where
  type : Nat
  sett : Nat
  bytes : Memory
  length : Nat
  digest : Nat

/-- Section entry i of a manifest (R440). -/
def sectionAt (m : Memory) (i : Nat) : Section :=
  let e := 0x40 + 96 * i
  let o := Memory.readN m e 8
  let n := Memory.readN m (e + 8) 8
  { type := Memory.readN m (e + 16) 1, sett := Memory.readN m (e + 17) 1, bytes := partOf m o n, length := n,
    digest := Memory.readN m (e + 32) 64 }

def findSection (l : List Section) (type sett : Nat) : Memory :=
  match l.find? (fun x => x.type = type && x.sett = sett) with | some x => x.bytes | none => []

/-- HBM of a sett from its map and data sections (R441). -/
def unpackHbm (map data : Memory) : Memory :=
  let us := (map.filter (fun p => decide (p.1 < 2 ^ 18))).flatMap (fun p =>
    ((List.range 8).filter (fun b => p.2.getLsbD b)).map (fun b => 8 * p.1 + b))
  (us.zip (List.range us.length)).flatMap (fun u => (partOf data (65536 * u.2) 65536).map (fun p => (65536 * u.1 + p.1, p.2)))

/-- Key indices of the leaves that a page table in HBM names, from a level down (R333, R334). -/
def leafKeys (hbm : Memory) : Nat → Nat → List Nat
  | level, table =>
    let n := match level with | 3 => 4096 | 2 => 4096 | 1 => 2048 | _ => 512
    let es := ((hbm.filter (fun p => decide (table ≤ p.1) && decide (p.1 < table + 8 * n))).map (fun p => p.1 / 8)).eraseDups
    es.flatMap (fun a => match decodeEntry level (Memory.readN hbm (8 * a) 8) with
      | .leaf l => [l.key]
      | .table pa => (match level with | 0 => [] | k + 1 => leafKeys hbm k pa)
      | _ => [])

/-! ## Checks (R443) -/

/-- The image passes the checks against the key at `arg1` and against this module. -/
def State.imageOk (s : State) (m : Memory) (secs : List Section) (key : Nat) : Bool :=
  Memory.readN m 0 4 = 0xB1 && Memory.readN m 4 4 = 1 && Memory.readN m 0x18 2 = 33 && Memory.readN m 0xD80 57 = key &&
  Memory.readN m 0xE00 114 = (Config.signature key (Memory.readN m 0 0xE00)).toNat &&
  secs.all (fun x => (Config.digest x.bytes x.length).toNat = x.digest) &&
  (List.range 8).all (fun q =>
    let (g, a) := s.goodUnits q
    decide (Memory.readN m (0x20 + 2 * q) 1 ≤ g) && decide (Memory.readN m (0x21 + 2 * q) 1 ≤ a) &&
    (leafKeys (unpackHbm (findSection secs 4 q) (findSection secs 5 q)) 3 (Memory.readN (findSection secs 2 q) 0x40 8)).all
      (fun k => (Tab.get none (s.sett q).keys k).isSome))

/-! ## The virtual map (R444) -/

/-- Physical clusters 0 to 33 that were not disabled at manufacture. -/
def enabledClusters : List Nat := (List.range 34).filter (fun p => !Config.disabledClusters.contains p)

/-- Physical cluster of a virtual one. -/
def State.physical (s : State) (sett v : Nat) : Nat := Tab.get 0 s.clusterMap (32 * sett + v)

/-- A core's own lasting marks: fenced, retired arrays, strikes. Everything else of it starts again. -/
def Core.lasting (c : Core) (now : Nat) : Core :=
  { Core.init with fenced := c.fenced, retired := c.retired, strikes := c.strikes, lastCal := now }

/-- The map of a sett: good clusters first, then those that hold a fenced core. The cores' marks stay with their physical
clusters. -/
def State.remap (s : State) (q : Nat) : State :=
  let bad (p : Nat) : Bool := (List.range 32).any (fun v => s.physical q v = p && !(s.goodClusters q).contains v)
  let order := enabledClusters.filter (fun p => !bad p) ++ enabledClusters.filter bad
  let pairs := order.zip (List.range order.length)
  let core (v i : Nat) : Core :=
    let p := order.getD v 0
    match (List.range 32).find? (fun w => s.physical q w = p) with
    | some w => s.core (128 * q + 4 * w + i)
    | none => Core.init
  let cores := (List.range 32).foldl (fun (t : Tab Core) v => (List.range 4).foldl (fun (t : Tab Core) i =>
    Tab.set Core.init t (128 * q + 4 * v + i) ((core v i).lasting s.cycle)) t) s.cores
  { s with cores := cores, clusterMap := pairs.foldl (fun t p => Tab.set 0 t (32 * q + p.2) p.1) s.clusterMap }

/-! ## The load (R445) -/

/-- A window entry of an image; one whose module is not on its link is stale. -/
def State.loadWindow (s : State) (w : Nat) : Window :=
  let handle := bits w 511 448
  let link := bits w 12 8
  let module := handle / 2 ^ 52
  let here := decide (module = 0) || ((s.link link).st = 1 && (s.link link).peer = module)
  { handle := handle, size := bits w 447 384, link := link, r := w.testBit 7, p := w.testBit 6, a := w.testBit 5,
    st := if bits w 1 0 = 1 && !here then 2 else bits w 1 0 }

/-- A table of records from a section. -/
def loadTable {β : Type} [DecidableEq β] (m : Memory) (base width count : Nat) (d : β) (f : Nat → β) : Tab β :=
  (List.range count).foldl (fun t i => Tab.set d t i (f (Memory.readN m (base + width * i) width))) []

/-- A stamp from its 96 bits (R284). -/
def Stamp.ofWord (w : Nat) : Stamp :=
  { devgen := bits w 95 80, src := bits w 79 78, sett := bits w 77 75, gang := bits w 74 64, ganggen := bits w 63 56,
    block := bits w 55 54, crew := bits w 53 49, epoch := bits w 48 33, seq := bits w 32 25, lane := bits w 24 20,
    sat := w.testBit 19, rc := w.testBit 0 }

/-- The sibling records of a section (R289, log 31). -/
def loadCells (m : Memory) : Tab (Option CellRec) :=
  let n := Memory.readN m 0 8
  ((List.range n).foldl (fun (acc : Tab (Option CellRec) × Nat) i =>
    let w := Memory.readN m (64 + 80 * i) 80
    let count := bits w 589 582
    let die := [bits w 479 352, bits w 351 224, bits w 223 96]
    let more := (List.range (count - 3)).map (fun j => Memory.readN m (acc.2 + 4 + 16 * j) 16)
    let sibs := ((die ++ more).take count).map (fun v => (Stamp.ofWord (v % 2 ^ 96), BitVec.ofNat 32 (v / 2 ^ 96)))
    (Tab.set none acc.1 (bits w 639 590) (some { gen := Memory.readN m acc.2 4, pstamp := Stamp.ofWord (bits w 575 480), sibs := sibs }),
     acc.2 + 4 + 16 * (count - 3))) (([] : Tab (Option CellRec)), 64 + 80 * n)).1

/-- The running launches of a sett state section: their cards are read from their queues' rings, their descriptors and region
values as they stand (log 32). -/
def State.loadLaunches (s : State) (q : Nat) (m : Memory) : List Launch :=
  (List.range (Memory.readN m 20 4)).map (fun i =>
    let e := Memory.readN m (0x6E000 + 16 * i) 16
    let queue := bits e 47 32
    let w := s.queueWord q queue
    let card := s.physRead q (cardAddr w (e % 2 ^ 32)) 64
    let head := Memory.readN m (0xE000 + 8 * queue) 8
    let started := head.testBit 24 && e % 2 ^ 32 = qHead w
    { card := card, queue := queue, gangs := cGangs card, placed := if started then bits head 23 0 else cGangs card,
      ended := bits e 95 64, failed := e.testBit 48, started := i, index := i, rcb := qRcb w,
      region := (s.region q (qRcb w)).getD {}, kdesc := (s.engineRead q (cKdesc card) 64).getD 0, at_ := e % 2 ^ 32 })

/-- A launch record from the store and from its word in the launch table (R319, R442). -/
def loadRecord (store word now : Nat) (launches : List Launch) : LaunchRec :=
  let st := bits word 1 0
  if st = 0 then
    if bits store 423 416 = 0 then LaunchRec.init else { LaunchRec.init with ganggen := bits store 423 416, reuse := true }
  else
    let l := launches.getD (bits word 63 52) { card := 0, queue := 0, gangs := 0, placed := 0, ended := 0, failed := false, started := 0, index := 0 }
    { card := bits store 1023 512, spill := bits store 511 448, gang := bits store 447 424, ganggen := bits store 423 416,
      tries := bits store 415 414, gt := store.testBit 413, recov := store.testBit 412, catch_ := bits store 367 336,
      gbar := bits store 335 320, vclus := bits store 319 312, cores := bits store 311 308,
      st := if st = 1 then .swapped else .awaiting, launch := l.index, queue := l.queue, kdesc := l.kdesc, handler := l.region.handler,
      prio := l.region.prio, relaunch := l.region.relaunch, kill := l.region.kill, th1 := l.region.th1, th2 := l.region.th2,
      xlate := l.region.xlate, rcb := l.rcb, firstAt := now, runFrom := now, waitFrom := now, image := if st = 1 then bits word 51 16 * 65536 else 0 }

/-- A queue's notes from its word; the engine admits it and checks its head again. -/
def loadQueue (word now : Nat) (launch : Option Nat) : QueueSt :=
  { QueueSt.init with launch := if word.testBit 24 then launch else none, since := now - bits word 63 32 }

/-- The tables and the engine state of a sett; its HBM has been written. -/
def State.loadSett (s : State) (q : Nat) (m cells : Memory) : State :=
  let base (i : Nat) : Nat := Memory.readN m (0x40 + 8 * i) 8
  let setbase : Tab Nat := (List.range 9).foldl (fun t i => Tab.set (setbaseDefault i) t i (base i)) []
  let s := s.modSett q (fun t => { t with setbase := setbase, rcbs := [] })
  let launches := s.loadLaunches q m
  let running (i : Nat) : Option Nat :=
    (launches.find? (fun l => l.queue = i && decide (l.placed < l.gangs))).map Launch.index
  let queues : Tab QueueSt := ((m.filter (fun p => decide (0xE000 ≤ p.1) && decide (p.1 < 0x2E000))).map (fun p => (p.1 - 0xE000) / 8)).eraseDups.foldl
    (fun (t : Tab QueueSt) i => Tab.set QueueSt.init t i (loadQueue (Memory.readN m (0xE000 + 8 * i) 8) s.cycle (running i))) []
  let records : Tab LaunchRec := (List.range 2048).foldl (fun (t : Tab LaunchRec) i =>
    Tab.set LaunchRec.init t i (loadRecord (Memory.readN m (0x2E000 + 128 * i) 128) (Memory.readN m (0xA000 + 8 * i) 8) s.cycle launches)) []
  let contexts := (records.filter (fun p => p.2.image != 0)).map (fun p => (p.2.image, s.imageRead q (p.2.image + 120) 8))
  s.modSett q (fun t => { t with
    span := .service
    devgen := Memory.readN m 0 2
    timeZero := (s.cycle : Int) - (Memory.readN m 8 8 : Nat)
    windows := loadTable m 0x1000 64 256 Window.init s.loadWindow
    groups := loadTable m 0x5000 64 256 GroupEntry.init loadGroup
    areas := loadTable m 0x9000 32 64 Area.init loadArea
    clusters := loadTable m 0x9800 8 32 Cluster.init (fun w => match bits w 15 14 with
      | 0 => Cluster.init
      | k => { holder := some (bits w 13 0), leaving := k = 2, used := s.cycle })
    records := records, queues := queues, launches := launches, nextLaunch := launches.length, contexts := contexts
    cells := loadCells cells
    genHold := none, swaps := [], registered := [], llc := [], tags := [], dir := [], victims := [], collectors := [], stlb := [],
    wcache := [], faults := [], faultWait := [], arrivals := [], trapWait := [], missWait := [], colls := [], posted := false, maintenance := false, gateTest := false })

/-- WAKE's load of the whole module. -/
def State.load (s : State) (secs : List Section) : State :=
  let hbm := (List.range 8).flatMap (fun q =>
    (unpackHbm (findSection secs 4 q) (findSection secs 5 q)).map (fun p => (hbmAddr q p.1, p.2)))
  let poison : Tab Bool := (List.range 8).foldl (fun (t : Tab Bool) q =>
    let x := findSection secs 2 q
    let L := Memory.readN x 20 4
    (List.range (Memory.readN x 24 4)).foldl (fun (t : Tab Bool) i =>
      Tab.set false t (hbmAddr q (Memory.readN x (0x6E000 + 16 * L + 8 * i) 8) / 64) true) t) []
  let gen := Memory.readN (findSection secs 2 0) 4 4
  let s := { s with
    hbm := hbm, poison := poison, sealed := [], codeOld := [], crews := [], blocks := [], reqs := [], copies := [], groups := [],
    walks := [], invs := [], journals := [], portLines := [], turn := [], mapgen := max gen s.mapgen + 1, hib := {} }
  let s := forEach (List.range 8) s (fun q t => t.remap q)
  let s := forEach (List.range 8) s (fun q t => t.loadSett q (findSection secs 2 q) (findSection secs 3 q))
  forEach (List.range 8) s (fun q t =>
    let t := forEach (t.enabledQueues q) t (fun i u => u.schedule 1 80 (.cardHeadCheck q i))
    t.kick q)

/-- WAKE (R434, R443, R445): accepted in suspension, and in start-up before the first job card. -/
def execWake (sett : Nat) (s : State) : Out :=
  commandStep sett (fun a k =>
    let t := s.sett sett
    if sett != 0 || s.hib.step != 0 then .next (s.finishCommand sett 4 0)
    else if a % 16 != 0 || k % 8 != 0 || !extentsOk (s.extents a) then .next (s.finishCommand sett 2 0)
    else if t.span = .service then .next (s.finishCommand sett 3 0)
    else
      let m := readExtents s.hostMem 0 (s.extents a)
      let secs := (List.range 33).map (sectionAt m)
      if !s.imageOk m secs (s.hostRead k 57) then .next (s.finishCommand sett 4 0)
      else .next ((s.load secs).finishCommand sett 0 0)) s

end Sys2Proof.Machine
end

