-- ==== Sys2Proof/Machine/Boot.lean ====
section
/-! DEFINITION. Boot, trust and power (spec/24): start-up and the reset of a sett, SPDM, key slots, the outbound filter, rails
and heat. -/

namespace Sys2Proof.Machine

/-! ## What reaches the module from outside -/

/-- Inputs from outside the package; the rest of the agenda is the module's own. -/
def Event.outside (e : Event) : Bool :=
  match e with
  | .hostMemRequest .. | .hostSnoop .. | .qdbDoorbell .. | .retrycntClear .. | .registerWrite .. | .collPacketReceive ..
  | .abortTokenReceive .. | .exportRevoke .. | .reedReport .. | .patrolScrub .. | .flitReceive .. | .nakReceive ..
  | .linkBringup .. | .powerOn | .settReset .. | .getVersion .. | .getCapabilities .. | .negotiateAlgorithms .. | .getDigests ..
  | .getCertificate .. | .challenge .. | .getMeasurements .. | .keyExchange .. | .finish .. | .keyUpdate .. | .endSession ..
  | .keyLoad .. | .keyClear .. | .filterEntryWrite .. | .dvsecRead .. | .railOvercurrent .. | .clockRecover .. | .thermalTrip
  | .supplyUndervoltage | .hostLinkDown => true
  | _ => false

/-- The module without its own state: what stands outside it, and the model's own counters, stay. -/
def State.lost (s : State) : State :=
  { State.reset with cycle := s.cycle, agenda := s.agenda.filter (fun t => t.ev.outside), draws := s.draws, nextId := s.nextId,
                     hostMem := s.hostMem, out := s.out }

/-! ## Start-up (R452) -/

/-- A sett's dies: its base die and its two compute dies. -/
def settDies (q : Nat) : List Nat := [q, 8 + 2 * q, 9 + 2 * q]

/-- The die that answers in a session (R450); a link's end is base die 0. -/
def sessionDie (session : Nat) : Nat := if session < 24 then session else 0

/-- The steps 1 to 5 of start-up for one sett: its dies measure their firmware and authenticate one another, with the draw
`d`; key slot 0 gets a fresh key; its converters are calibrated; its self-test has run in maintenance mode, which lasts until the first job card, with the gate-timing bit
as the firmware has it (log 116); the count of time starts. -/
def State.startUp (s : State) (q d : Nat) : State :=
  let (k, s) := s.draw
  let measured : Tab Nat := (settDies q).foldl (fun (t : Tab Nat) i => Tab.set 0 t i (Config.crypto d i).toNat) s.measurements
  let sessions : Tab Session := (settDies q).foldl (fun (t : Tab Session) i =>
    if i = 0 then Tab.set Session.init t 0 Session.init
    else if !Config.authentic d i then Tab.set Session.init t i Session.init
    else Tab.set Session.init t i { st := 5, key := (Config.crypto d (32 + i)).toNat }) s.sessions
  let s := { s with measurements := measured, sessions := sessions }
  let s := s.setSett q { Sett.init with
    keys := [(0, some (Config.freshKey k).toNat)]
    timeZero := s.cycle, lastRealloc := s.cycle, outOfReset := s.cycle
    maintenance := true, gateTest := Config.gateTest d
    authenticated := (0 :: settDies q).all (Config.authentic d) }
  (s.schedule (fabric 4096) 79 (.dependencePoll q)).schedule 65536 88 (.clusterReallocation q)

/-- POWER_ON (R452): everything starts again, the trip's latch and the lockout included (R459). -/
def execPowerOn (s : State) : Out :=
  let s := s.lost
  let (d, s) := s.draw
  let s := { s with cxlCache := Config.cacheEnabled d, atomicOps := Config.atomicEnabled d }
  .next (forEach (List.range 8) s (fun q t => (t.startUp q d).remap q))

/-! ## Reset of a sett (R13) -/

/-- An event of a sett's own activity. -/
def State.ofSett (s : State) (q : Nat) (e : Event) : Bool :=
  let req (n : Nat) : Bool := (s.req n).any (fun r => crewSett r.crew = q)
  let copy (n : Nat) : Bool := (s.copy n).any (fun c => coreSett c.core = q)
  let crew (k : Nat) : Bool := crewSett k = q
  let core (c : Nat) : Bool := coreSett c = q
  match e with
  | .deferredTrapDelivery k | .pathPromotion k _ | .symbolResolve k _ | .waiterResume k _ | .trywDeadline k _ | .sleepExpiry k _
  | .crewEnd k | .leasePlaced k _ | .leaseFillData k _ | .leaseRevoke k _ => crew k
  | .loadDataReturn r | .strikeClearance r | .storePerformed r | .atomicStep r _ | .reconcileStep r _ | .wr _ r | .fwdWr _ r
  | .nack _ r | .replicaWrite _ _ r | .barrierUpdate r | .hostAtomicCasResponse r _ => req r
  | .copyStart c | .copyPieceLand c _ | .copyRetire c | .putPiecePerformed c _ => copy c
  | .activeSetResidencyExpiry c _ | .activeSetFill c _ | .idleClockGate c | .idlePowerGate c | .coreWake c | .deadlinePreWake c
  | .longWaitThreshold c | .hangSuspectThreshold c | .postBufferDrain c | .multicastEnqueue c _ | .seqBlockRead c _ | .seqStart c
  | .amodeSwitch c _ | .columnSumDone c _ | .mloadSlotDone c _ | .mmvFetchDone c _ | .mmvHighPlanesDone c _
  | .mmvLowPlanesDone c _ | .mmvSumDone c _ | .rowCommit c _ | .accRowDone c _ | .seqOpRetire c _ | .seqStopRequest c _
  | .evack c _ | .data c _ | .rollbackRestoreDone c | .recoverySpanEnd c | .converterCalibration c _ | .calibrationPause c _ => core c
  | .amodeStorageEntry b _ | .swapInRestoreDone b => blockSett b = q
  | .translationWalkDone w => (Tab.get none s.walks w).any (fun x => x.sett = q)
  | .tlbinvApply n t => t = q || (Tab.get none s.invs n).any (fun x => crew x.crew)
  | .tlbinvAck n _ => (Tab.get none s.invs n).any (fun x => crew x.crew)
  | .dequeStep h => core (4 * h)
  | .collectiveComplete t _ | .faultServiceCardPost t | .faultResStore t _ _ | .faultRetryWalkDone t _ | .gets t _ _ | .evict t _ _
  | .invack t _ | .own t _ _ | .wb t _ _ _ | .replicaUpdate t _ _ | .setbase t | .refresh t | .qstatus t | .qresume t | .import t
  | .unimport t | .unimportComplete t _ | .hibernate t | .wake t | .dependencePoll t | .cardHeadCheck t _ | .cardStart t _
  | .gangPlacement t | .priorityAgeing t | .swapOutDecision t | .clusterReallocation t | .swapOutStop t _ | .swapOutDrainDone t _
  | .swapOutCloseDone t _ | .swapOutImageWritten t _ | .swapOutFree t _ | .relaunchCatchupEnd t _ | .unknownOp t => t = q
  | .inv n x _ => sectorSett x = q || n = 2 + q
  | .fwdGets _ x _ | .fwdOwn _ x _ | .wback _ x => sectorSett x = q
  | _ => false

/-- Invalidations that a sett still owes are acknowledged by its fabric port, as acknowledged by reset (R183). -/
def State.ackByReset (s : State) (q : Nat) : State :=
  forEach s.invs s (fun (p : Nat × Option TlbInv) s => match p.2 with
    | none => s
    | some x =>
      if !x.left.contains q || s.agenda.any (fun t => t.ev = .tlbinvAck p.1 q) then s
      else
        let s := { s with invs := Tab.set none s.invs p.1 (some { x with byReset := x.byReset ||| 2 ^ q }) }
        s.schedule (fabric 40) 43 (.tlbinvAck p.1 q))

/-- SETT_RESET (R13): the sett's gangs, its queues and its tables are gone and it goes through start-up; its HBM keeps its
bytes, under keys that are gone. Writes of other setts that awaited acknowledgements at its homes are complete. -/
def execSettReset (sett : Nat) (s : State) : Out :=
  if 8 ≤ sett then .next s
  else
    let q := sett
    let s := { s with agenda := s.agenda.filter (fun t => t.ev.outside || !s.ofSett q t.ev) }
    let awaited := (s.sett q).collectors.filterMap (fun p => p.2.bind Collector.req)
    let mine (c : Nat) : Bool := coreSett c = q
    let homed (x : Nat) : Bool := sectorSett x = q
    let lasting (p : Nat × Core) : Nat × Core := (p.1, p.2.lasting s.cycle)
    let peer (p : Nat × Core) : Nat × Core :=
      (p.1, { p.2 with sectors := p.2.sectors.filter (fun x => !homed x.1)
                       l1 := p.2.l1.filter (fun l => l.line / 2 ^ 40 != q) })
    let settle (p : Nat × Core) : Nat × Core := if mine p.1 then lasting p else peer p
    let invs := s.invs.filter (fun p => match p.2 with | some x => crewSett x.crew != q | none => false)
    let s := { s with
      turn := s.turn.filter (fun u => crewSett u.crew != q)
      crews := s.crews.filter (fun p => crewSett p.1 != q)
      blocks := s.blocks.filter (fun p => blockSett p.1 != q)
      cores := (s.cores.map settle).filter (fun (p : Nat × Core) => p.2 != Core.init)
      reqs := s.reqs.filter (fun p => match p.2 with | some r => crewSett r.crew != q | none => false)
      copies := s.copies.filter (fun p => match p.2 with | some c => !mine c.core | none => false)
      groups := s.groups.filter (fun p => match p.2 with | some x => crewSett x.crew != q | none => false)
      walks := s.walks.filter (fun p => match p.2 with | some x => x.sett != q | none => false)
      invs := invs
      journals := s.journals.filter (fun p => !mine p.1)
      codeOld := s.codeOld.filter (fun p => p.1 / 2 ^ 35 != q)
      portLines := s.portLines.filter (fun p => p.1 != q)
      hib := if q = 0 then {} else s.hib }
    let (d, s) := s.draw
    let s := (s.startUp q d).ackByReset q
    .next (forEach awaited s (fun id t => t.completeWrite id))

/-! ## SPDM (R449, R450)

The codes of the answers are those of the SPDM standard, as is the order in which requests may come (log 33). -/

/-- An answer. -/
def State.answer (s : State) (session code value : Nat) : State := s.send (.spdm session code value)

/-- A request that comes out of order is answered with ERROR. -/
def State.refuseSpdm (s : State) (session : Nat) : State := s.answer session 0x7F 4

def State.session (s : State) (n : Nat) : Session := Tab.get Session.init s.sessions n
def State.setSession (s : State) (n : Nat) (x : Session) : State := { s with sessions := Tab.set Session.init s.sessions n x }

/-- The answer of the module's cryptography to a request. -/
def State.signed (s : State) (session code : Nat) : State :=
  let (d, s) := s.draw
  s.answer session code (Config.crypto d 0).toNat

/-- GET_VERSION: the negotiation starts again; the version is 1.3. -/
def execGetVersion (session : Nat) (s : State) : Out :=
  .next ((s.setSession session { s.session session with st := 1 }).answer session 0x04 0x13)

/-- GET_CAPABILITIES. -/
def execGetCapabilities (session : Nat) (s : State) : Out :=
  .next (if (s.session session).st = 1 then (s.setSession session { s.session session with st := 2 }).signed session 0x61
    else s.refuseSpdm session)

/-- The one set of algorithms of R449, in an answer. -/
def algorithmSet : Nat := 1

/-- NEGOTIATE_ALGORITHMS: no other set is taken. -/
def execNegotiateAlgorithms (session : Nat) (s : State) : Out :=
  .next (if (s.session session).st = 2 then (s.setSession session { s.session session with st := 3 }).answer session 0x63 algorithmSet
    else s.refuseSpdm session)

/-- GET_DIGESTS: of the certificate chains. -/
def execGetDigests (session : Nat) (s : State) : Out :=
  .next (if 3 ≤ (s.session session).st then s.signed session 0x01 else s.refuseSpdm session)

/-- GET_CERTIFICATE (R447): the chain of a die; the module identity is that of base die 0. -/
def execGetCertificate (session : Nat) (die : Nat) (s : State) : Out :=
  .next (if 3 ≤ (s.session session).st && decide (die < 24) then s.answer session 0x02 (Config.certificate die)
    else s.refuseSpdm session)

/-- CHALLENGE. -/
def execChallenge (session : Nat) (s : State) : Out :=
  .next (if 3 ≤ (s.session session).st then s.signed session 0x03 else s.refuseSpdm session)

/-- The measurements of dies, 512 bits each, the first lowest (R448). -/
def State.measured (s : State) (dies : List Nat) : Nat :=
  (dies.zip (List.range dies.length)).foldl (fun a p => a + Tab.get 0 s.measurements p.1 % 2 ^ 512 * 2 ^ (512 * p.2)) 0

/-- GET_MEASUREMENTS: the module's are those of all its dies. -/
def execGetMeasurements (session : Nat) (s : State) : Out :=
  let dies := if session = 0 then List.range 24 else [sessionDie session]
  .next (if 3 ≤ (s.session session).st then s.answer session 0x60 (s.measured dies) else s.refuseSpdm session)

/-- KEY_EXCHANGE: the ephemeral exchange. -/
def execKeyExchange (session : Nat) (s : State) : Out :=
  .next (if 3 ≤ (s.session session).st then (s.setSession session { s.session session with st := 4 }).signed session 0x64
    else s.refuseSpdm session)

/-- New keys for a session; a link's session gives the link its traffic keys (R450). -/
def State.newKeys (s : State) (session : Nat) : State :=
  let (d, s) := s.draw
  let s := s.setSession session { st := 5, key := (Config.crypto d 0).toNat }
  if session < 24 then s else s.setLink (session - 24) { s.link (session - 24) with key := (s.link (session - 24)).key + 1 }

/-- FINISH: the session is open under the keys of the exchange. -/
def execFinish (session : Nat) (s : State) : Out :=
  .next (if (s.session session).st = 4 then (s.newKeys session).answer session 0x65 0 else s.refuseSpdm session)

/-- KEY_UPDATE: the keys are replaced. -/
def execKeyUpdate (session : Nat) (s : State) : Out :=
  .next (if (s.session session).st = 5 then (s.newKeys session).answer session 0x69 0 else s.refuseSpdm session)

/-- END_SESSION: the keys are gone; what was negotiated stands. -/
def execEndSession (session : Nat) (s : State) : Out :=
  .next (if (s.session session).st = 5 then (s.setSession session { st := 3 }).answer session 0x6C 0 else s.refuseSpdm session)

/-! ## Key slots (R453 to R455) -/

/-- An answer to a vendor-defined request. -/
def State.vendor (s : State) (value : Nat) : State := s.answer 0 0x7E value

/-- The slot of a vendor-defined request, or the value that turns it away (R454). -/
def slotBar (sett slot : Nat) : Option Nat :=
  if 8 ≤ sett || 64 ≤ slot then some 1 else if slot = 0 then some 3 else none

/-- KEY_LOAD, inside the host's session. -/
def execKeyLoad (sett : Nat) (slot : Nat) (key : Nat) (s : State) : Out :=
  if (s.session 0).st != 5 then .next (s.refuseSpdm 0)
  else match slotBar sett slot with
    | some v => .next (s.vendor v)
    | none =>
      if (s.keyOf sett slot).isSome && (s.sett sett).span = .service then .next (s.vendor 2)
      else .next ((s.modSett sett (fun t => { t with keys := Tab.set none t.keys slot (some (key % 2 ^ 512)) })).vendor 0)

/-- Lines of a key leave the home slices. -/
def State.dropKeyLines (s : State) (sett key : Nat) : State :=
  let mark (line : Nat) : Bool := [0, 1].any (fun i => Tab.get 0 s.sealed (hbmAddr sett (128 * line) / 64 + i) = key + 1)
  s.modSett sett (fun t => { t with llc := t.llc.filter (fun p => !mark p.1) })

/-- KEY_CLEAR (R455): what was performed used the key; lines are written back or dropped, the slot empties, then the answer is
sent. -/
def execKeyClear (sett : Nat) (slot : Nat) (s : State) : Out :=
  if (s.session 0).st != 5 then .next (s.refuseSpdm 0)
  else match slotBar sett slot with
    | some v => .next (s.vendor v)
    | none =>
      let s := match s.keyOf sett slot with | some k => s.dropKeyLines sett k | none => s
      .next ((s.modSett sett (fun t => { t with keys := Tab.set none t.keys slot none })).vendor 0)

/-! ## The outbound filter (R456, R457) -/

/-- FILTER_ENTRY_WRITE: the two 64-bit halves of an entry; what is read only stays zero. -/
def execFilterEntryWrite (sett : Nat) (entry : Nat) (base : Nat) (limit : Nat) (s : State) : Out :=
  if 8 ≤ sett || 16 ≤ entry then .next s
  else
    let f : Filter := { base := bits base 63 25, limit := bits limit 50 12, w := base.testBit 2, r := base.testBit 1, en := base.testBit 0 }
    .next (s.modSett sett (fun t => { t with filter := Tab.set Filter.init t.filter entry f }))

/-- A filter entry as its 128 bits. -/
def Filter.word (f : Filter) : Nat :=
  f.limit * 2 ^ 76 + f.base * 2 ^ 25 + f.w.toNat * 4 + f.r.toNat * 2 + f.en.toNat

/-- An access of a sett to host memory that passed the filter and is not performed yet. -/
def State.outward (s : State) (sett : Nat) : Bool :=
  s.reqs.any (fun p => match p.2 with
    | some r => crewSett r.crew = sett && r.lanes.any (fun x => !x.done &&
        (x.target.any (fun t => match t.place with | .host _ => true | _ => false)))
    | none => false)

/-- The 32-bit word at an offset of a function's configuration space that this model holds. -/
def State.dvsecWord (s : State) (sett offset : Nat) : Nat :=
  if 0x800 ≤ offset && offset < 0x900 then
    (Tab.get Filter.init (s.sett sett).filter ((offset - 0x800) / 16)).word / 2 ^ (32 * (offset / 4 % 4)) % 2 ^ 32
  else if offset / 4 = 0x240 then s.power.tripped.toNat
  else 0

/-- DVSEC_READ: completes once every access that the filter passed before is performed. -/
def execDvsecRead (sett : Nat) (offset : Nat) (s : State) : Out :=
  .next (if s.outward sett then s.schedule 1 97 (.dvsecRead sett offset)
    else s.send (.cxl sett 9 offset (s.dvsecWord sett offset)))

/-! ## Power, current and heat (R458, R459) -/

/-- RAIL_OVERCURRENT: the die's clock is halved; its cycle counts are its own cycles and stay. -/
def execRailOvercurrent (die : Nat) (rail : Nat) (s : State) : Out :=
  let h := s.power.halved
  .next { s with power := { s.power with halved := if h.contains (4 * die + rail) then h else h ++ [4 * die + rail] } }

/-- CLOCK_RECOVER. -/
def execClockRecover (die : Nat) (rail : Nat) (s : State) : Out :=
  .next { s with power := { s.power with halved := s.power.halved.filter (· != 4 * die + rail) } }

/-- THERMAL_TRIP: the rails are removed, the host port goes down, device state is lost and the trip is latched. -/
def execThermalTrip (s : State) : Out :=
  .next { s.lost with hostUp := false, power := { on := false, tripped := true, locked := s.power.locked } }

/-- SUPPLY_UNDERVOLTAGE: the module is locked out. -/
def execSupplyUndervoltage (s : State) : Out :=
  .next { s.lost with hostUp := false, power := { on := false, tripped := s.power.tripped, locked := true } }

end Sys2Proof.Machine
end

