-- ==== Sys2Proof/Machine/Convert.lean ====
section
/-! DEFINITION. Conversion, MX scales and DS8 (spec/05, R120 to R124). -/

namespace Sys2Proof.Machine

/-- CVT (R120). Converts one element between FP32 and the format named in the function field. -/
def execCvt (px : Option Pfx) (d : BitVec 7) (a : BitVec 7) (v : BitVec 1) (s : BitVec 2) (f : BitVec 4) (g : BitVec 4) (st : State) : Out :=
  alu (.cvt px d a v s f g) (fun x => if v = 0 then cvtTo ((info (.cvt px d a v s f g)).rnd) f.toNat s.toNat (x 0) (x 1) else cvtFrom ((info (.cvt px d a v s f g)).rnd) f.toNat s.toNat (x 0)) st

/-- CVTMX (R122). Multiplies an FP32 value by its lane block's E8M0 scale. -/
def execCvtmx (px : Option Pfx) (d : BitVec 7) (a : BitVec 7) (s : BitVec 5) (e : BitVec 2) (g : BitVec 4) (st : State) : Out :=
  aluAt (.cvtmx px d a s e g) (fun c u l n v => mxScaled ((info (.cvtmx px d a s e g)).rnd) true (scaleByte c u (.cvtmx px d a s e g) n l) (v 0)) st

/-- QMX (R122). Divides an FP32 value by its lane block's E8M0 scale. -/
def execQmx (px : Option Pfx) (d : BitVec 7) (a : BitVec 7) (s : BitVec 5) (e : BitVec 2) (g : BitVec 4) (st : State) : Out :=
  aluAt (.qmx px d a s e g) (fun c u l n v => mxScaled ((info (.qmx px d a s e g)).rnd) false (scaleByte c u (.qmx px d a s e g) n l) (v 0)) st

/-- MXSCL_E4M3 (R121). Computes an E8M0 scale for E4M3 from an FP32 magnitude. -/
def execMxsclE4m3 (px : Option Pfx) (d : BitVec 7) (a : BitVec 7) (g : BitVec 4) (s : State) : Out :=
  alu (.mxsclE4m3 px d a g) (fun v => mxscl 8 (v 0)) s

/-- MXSCL_E5M2 (R121). Computes an E8M0 scale for E5M2. -/
def execMxsclE5m2 (px : Option Pfx) (d : BitVec 7) (a : BitVec 7) (g : BitVec 4) (s : State) : Out :=
  alu (.mxsclE5m2 px d a g) (fun v => mxscl 15 (v 0)) s

/-- MXSCL_E2M3 (R121). Computes an E8M0 scale for E2M3. -/
def execMxsclE2m3 (px : Option Pfx) (d : BitVec 7) (a : BitVec 7) (g : BitVec 4) (s : State) : Out :=
  alu (.mxsclE2m3 px d a g) (fun v => mxscl 2 (v 0)) s

/-- MXSCL_E3M2 (R121). Computes an E8M0 scale for E3M2. -/
def execMxsclE3m2 (px : Option Pfx) (d : BitVec 7) (a : BitVec 7) (g : BitVec 4) (s : State) : Out :=
  alu (.mxsclE3m2 px d a g) (fun v => mxscl 4 (v 0)) s

/-- MXSCL_E2M1 (R121). Computes an E8M0 scale for E2M1. -/
def execMxsclE2m1 (px : Option Pfx) (d : BitVec 7) (a : BitVec 7) (g : BitVec 4) (s : State) : Out :=
  alu (.mxsclE2m1 px d a g) (fun v => mxscl 2 (v 0)) s

/-- MXSCL_MXINT8 (R121). Computes an E8M0 scale for MXINT8. -/
def execMxsclMxint8 (px : Option Pfx) (d : BitVec 7) (a : BitVec 7) (g : BitVec 4) (s : State) : Out :=
  alu (.mxsclMxint8 px d a g) (fun v => mxscl 0 (v 0)) s

/-- DSMUL (R123). Multiplies B by a DS8 value using shift and add. -/
def execDsmul (px : Option Pfx) (d : BitVec 7) (a : BitVec 7) (b : BitVec 7) (g : BitVec 4) (s : State) : Out :=
  alu (.dsmul px d a b g) (fun v => dsmul (v 0) (v 1)) s

/-- DSCVT_FROMF32 (R124). Rounds FP32 to DS8 into byte i of d. -/
def execDscvtFromf32 (px : Option Pfx) (d : BitVec 7) (a : BitVec 7) (i : BitVec 2) (g : BitVec 4) (s : State) : Out :=
  alu (.dscvtFromf32 px d a i g) (fun v => putByte (v 1) i.toNat (ds8Round ((info (.dscvtFromf32 px d a i g)).rnd) (fin32 ((info (.dscvtFromf32 px d a i g)).rnd) (v 0)))) s

/-- DSCVT_TOF32 (R124). Converts DS8 byte i to FP32 exactly. -/
def execDscvtTof32 (px : Option Pfx) (d : BitVec 7) (a : BitVec 7) (i : BitVec 2) (g : BitVec 4) (s : State) : Out :=
  alu (.dscvtTof32 px d a i g) (fun v => Fmt.fp32.round 0 (FVal.ofInt (ds8Value (byteOf (v 0) i.toNat)))) s

/-- DSCVT_FROMI32 (R124). Rounds an i32 to DS8 into byte i of d. -/
def execDscvtFromi32 (px : Option Pfx) (d : BitVec 7) (a : BitVec 7) (i : BitVec 2) (g : BitVec 4) (s : State) : Out :=
  alu (.dscvtFromi32 px d a i g) (fun v => putByte (v 1) i.toNat (ds8Round ((info (.dscvtFromi32 px d a i g)).rnd) (FVal.ofInt (S (v 0))))) s

/-- DSCVT_TOI32 (R124). Converts DS8 byte i to i32. -/
def execDscvtToi32 (px : Option Pfx) (d : BitVec 7) (a : BitVec 7) (i : BitVec 2) (g : BitVec 4) (s : State) : Out :=
  alu (.dscvtToi32 px d a i g) (fun v => wrap 32 (ds8Value (byteOf (v 0) i.toNat))) s

/-- DSCVT_CANON (R124). Canonicalises every DS8 byte of a. -/
def execDscvtCanon (px : Option Pfx) (d : BitVec 7) (a : BitVec 7) (g : BitVec 4) (s : State) : Out :=
  alu (.dscvtCanon px d a g) (fun v => (List.range 4).foldl (fun t k => t + ds8Canon (ds8Value (byteOf (v 0) k)) * 2 ^ (8 * k)) 0) s

end Sys2Proof.Machine
end

