-- ==== Sys2Proof/Machine/Special.lean ====
section
/-! DEFINITION. The special functions of R84. RCP, RSQ and SQRT are exact quotients and roots with a sticky bit. The
transcendental functions are computed in fixed point with `prec` fraction bits, far beyond what the rounding of R80
needs: the low `guard` bits are dropped and a sticky bit added, since by the theorems on these functions no result
outside the exact cases of R84 is a dyadic number. -/

namespace Sys2Proof.Machine

/-- Fraction bits of the fixed-point evaluation. -/
def prec : Nat := 640

/-- Low bits that absorb the truncation errors of the evaluation. -/
def guardBits : Nat := 24

def one : Nat := 2 ^ prec

/-- Floor of a square root, one bit a step from bit `k` down. -/
def isqrtLoop : Nat → Nat → Nat → Nat
  | 0, _, r => r
  | k + 1, n, r => let t := r + 2 ^ k
                   isqrtLoop k n (if t * t ≤ n then t else r)

def isqrt (n : Nat) : Nat := isqrtLoop (Nat.log2 n / 2 + 1) n 0

/-- Σ x^(2k+1)/(2k+1) with x = 1/d, signs alternating or not: atan or atanh of 1/d. -/
def invSeries (alt : Bool) (d : Nat) : Nat → Nat → Nat → Int → Int
  | 0, _, _, acc => acc
  | n + 1, k, p, acc =>
    let t : Int := p / (2 * k + 1)
    invSeries alt d n (k + 1) (p / (d * d)) (if alt && k % 2 = 1 then acc - t else acc + t)

/-- ln 2 = 2·atanh(1/3). -/
def ln2 : Nat := (2 * invSeries false 3 220 0 (one / 3) 0).toNat

/-- π = 16·atan(1/5) − 4·atan(1/239). -/
def piFix : Nat := (16 * invSeries true 5 160 0 (one / 5) 0 - 4 * invSeries true 239 60 0 (one / 239) 0).toNat

/-- e^x for a fixed-point x in [0, 1). -/
def expLoop (x : Nat) : Nat → Nat → Nat → Nat → Nat
  | 0, _, _, acc => acc
  | n + 1, k, t, acc => let t' := t * x / one / k
                        expLoop x n (k + 1) t' (acc + t')

def expFix (x : Nat) : Nat := expLoop x 140 1 one one

/-- sin x for a fixed-point x in [0, 1.6). -/
def sinLoop (x2 : Nat) : Nat → Nat → Nat → Int → Int
  | 0, _, _, acc => acc
  | n + 1, k, t, acc =>
    let t' := t * x2 / one / ((2 * k) * (2 * k + 1))
    sinLoop x2 n (k + 1) t' (if k % 2 = 1 then acc - t' else acc + t')

def sinFix (x : Nat) : Nat := (sinLoop (x * x / one) 90 1 x x).toNat

/-- atanh series on a fixed-point t in [0, 1/3]. -/
def atanhLoop (t2 : Nat) : Nat → Nat → Nat → Nat → Nat
  | 0, _, _, acc => acc
  | n + 1, k, p, acc => atanhLoop t2 n (k + 1) (p * t2 / one) (acc + p / (2 * k + 1))

/-- ln y for a fixed-point y in [1, 2). -/
def lnFix (y : Nat) : Nat :=
  let t := (y - one) * one / (y + one)
  2 * atanhLoop (t * t / one) 220 0 t 0

/-- An inexact fixed-point magnitude as a value between its neighbours: the sticky bit is set. -/
def inexact (neg : Bool) (n : Nat) (shift : Int) : FVal :=
  .fin neg (2 * (n / 2 ^ guardBits) + 1) (shift - prec + guardBits - 1)

/-- m·2^e·2^prec rounded down. -/
def toFix (m : Nat) (e : Int) : Nat :=
  if 0 ≤ e + prec then m * 2 ^ (e + prec).toNat else m / 2 ^ (-(e + prec)).toNat

/-- A quotient or root with its remainder as a sticky bit. -/
def sticky (neg : Bool) (q : Nat) (exact : Bool) (e : Int) : FVal :=
  .fin neg (2 * q + if exact then 0 else 1) (e - 1)

def fRcp : FVal → FVal
  | .nan => .nan
  | .inf n => .fin n 0 0
  | .fin n m e =>
    if m = 0 then .inf n
    else
      let k := Nat.log2 m + 64
      sticky n (2 ^ k / m) (2 ^ k % m = 0) (-(k : Int) - e)

def fSqrt : FVal → FVal
  | .nan => .nan
  | .inf n => if n then .nan else .inf false
  | .fin n m e =>
    if m = 0 then .fin n 0 0
    else if n then .nan
    else
      -- an even exponent and at least 64 bits of root
      let s := 128 + (e % 2).toNat
      let M := m * 2 ^ s
      let r := isqrt M
      sticky false r (r * r = M) ((e - s) / 2)

def fRsq : FVal → FVal
  | .nan => .nan
  | .inf n => if n then .nan else .fin false 0 0
  | .fin n m e =>
    if m = 0 then .inf n
    else if n then .nan
    else
      let M := m * 2 ^ (e % 2).toNat
      let k := Nat.log2 M + 64
      let r := isqrt (2 ^ (2 * k) / M)
      sticky false r (r * r * M = 2 ^ (2 * k)) (-(k : Int) - e / 2)

/-- 2^x. -/
def fExp2 : FVal → FVal
  | .nan => .nan
  | .inf n => if n then .fin false 0 0 else .inf false
  | .fin n m e =>
    -- beyond ±1024 the result overflows or vanishes alike
    let big := m != 0 && 10 ≤ (Nat.log2 m : Int) + e
    if big then .fin false 3 (if n then -1100 else 1100)
    else
      let f := toFix m e
      let whole : Int := f / one
      let frac := f % one
      if frac = 0 then .fin false 1 (if n then -whole else whole)
      else
        let (w, x) : Int × Nat := if n then (-whole - 1, one - frac) else (whole, frac)
        inexact false (expFix (x * ln2 / one)) w

/-- log2 x. -/
def fLog2 : FVal → FVal
  | .nan => .nan
  | .inf n => if n then .nan else .inf false
  | .fin n m e =>
    if m = 0 then .inf true
    else if n then .nan
    else
      let k := Nat.log2 m
      let E : Int := (k : Int) + e
      if m = 2 ^ k then FVal.ofInt E
      else
        let l := lnFix (toFix m (-(k : Int))) * one / ln2
        let v : Int := E * one + l
        if 0 ≤ v then inexact false v.toNat 0 else inexact true (-v).toNat 0

/-- sin(π·r) for a fixed-point 0 < r ≤ 1/2; the exact value 1 at 1/2. -/
def sinPiQuarter (neg : Bool) (r : Nat) : FVal :=
  if 2 * r = one then .fin neg 1 0 else inexact neg (sinFix (piFix * r / one)) 0

/-- sin(π·x). -/
def fSinpi : FVal → FVal
  | .nan => .nan
  | .inf _ => .nan
  | .fin n m e =>
    if m = 0 then .fin n 0 0
    else if 0 ≤ e then .fin n 0 0
    else
      let r := toFix m e % (2 * one)
      if r % one = 0 then .fin n 0 0
      else
        let s := r % one
        sinPiQuarter (n != decide (one < r)) (if 2 * s ≤ one then s else one - s)

/-- cos(π·x). -/
def fCospi : FVal → FVal
  | .nan => .nan
  | .inf _ => .nan
  | .fin _ m e =>
    let r := (if 0 ≤ e then toFix (m * 2 ^ e.toNat % 2) 0 else toFix m e) % (2 * one)
    if r = 0 then .fin false 1 0
    else if r = one then .fin true 1 0
    else if 2 * (r % one) = one then .fin false 0 0
    else
      -- cos is even about 0 and 1
      let s := if r < one then r else 2 * one - r
      if 2 * s < one then sinPiQuarter false (one / 2 - s) else sinPiQuarter true (s - one / 2)

/-- tanh x = (1 − e^(−2x)) / (1 + e^(−2x)) for x > 0. -/
def fTanh : FVal → FVal
  | .nan => .nan
  | .inf n => .fin n 1 0
  | .fin n m e =>
    if m = 0 then .fin n 0 0
    else
      let big := 6 ≤ (Nat.log2 m : Int) + e
      let y := if big then 128 * one else toFix m (e + 1)
      let k := y / ln2
      let x := y - k * ln2
      let E := one * one / expFix x / 2 ^ k
      inexact n ((one - E) * one / (one + E)) 0

end Sys2Proof.Machine
end

