-- ==== Sys2Proof/Machine/Floating.lean ====
section
/-! DEFINITION. FP32, special functions, packed and dot forms (spec/05, R114 to R119). -/

namespace Sys2Proof.Machine

/-- FADD (R115). Adds two FP32 values with one rounding. -/
def execFadd (px : Option Pfx) (d : BitVec 7) (a : BitVec 7) (b : BitVec 7) (g : BitVec 4) (s : State) : Out :=
  alu (.fadd px d a b g) (fun v => fadd32 ((info (.fadd px d a b g)).rnd) (v 0) (v 1)) s

/-- FSUB (R115). Subtracts two FP32 values with one rounding. -/
def execFsub (px : Option Pfx) (d : BitVec 7) (a : BitVec 7) (b : BitVec 7) (g : BitVec 4) (s : State) : Out :=
  alu (.fsub px d a b g) (fun v => fsub32 ((info (.fsub px d a b g)).rnd) (v 0) (v 1)) s

/-- FMUL (R115). Multiplies two FP32 values with one rounding. -/
def execFmul (px : Option Pfx) (d : BitVec 7) (a : BitVec 7) (b : BitVec 7) (g : BitVec 4) (s : State) : Out :=
  alu (.fmul px d a b g) (fun v => fmul32 ((info (.fmul px d a b g)).rnd) (v 0) (v 1)) s

/-- FFMA (R115). Computes a times b plus c in FP32 with one rounding. -/
def execFfma (px : Option Pfx) (d : BitVec 7) (a : BitVec 7) (b : BitVec 7) (g : BitVec 4) (s : State) : Out :=
  alu (.ffma px d a b g) (fun v => ffma32 ((info (.ffma px d a b g)).rnd) (v 0) (v 1) (v 2)) s

/-- FMIN (R83). Writes the IEEE minimumNumber of two FP32 values. -/
def execFmin (px : Option Pfx) (d : BitVec 7) (a : BitVec 7) (b : BitVec 7) (g : BitVec 4) (s : State) : Out :=
  alu (.fmin px d a b g) (fun v => (fminmax false (BitVec.ofNat 32 (v 0)) (BitVec.ofNat 32 (v 1))).toNat) s

/-- FMAX (R83). Writes the IEEE maximumNumber of two FP32 values. -/
def execFmax (px : Option Pfx) (d : BitVec 7) (a : BitVec 7) (b : BitVec 7) (g : BitVec 4) (s : State) : Out :=
  alu (.fmax px d a b g) (fun v => (fminmax true (BitVec.ofNat 32 (v 0)) (BitVec.ofNat 32 (v 1))).toNat) s

/-- FSF_RCP (R116). Writes the correctly rounded reciprocal. -/
def execFsfRcp (px : Option Pfx) (d : BitVec 7) (a : BitVec 7) (g : BitVec 4) (s : State) : Out :=
  alu (.fsfRcp px d a g) (fun v => ffun ((info (.fsfRcp px d a g)).rnd) fRcp (v 0)) s

/-- FSF_RSQ (R116). Writes the correctly rounded reciprocal square root. -/
def execFsfRsq (px : Option Pfx) (d : BitVec 7) (a : BitVec 7) (g : BitVec 4) (s : State) : Out :=
  alu (.fsfRsq px d a g) (fun v => ffun ((info (.fsfRsq px d a g)).rnd) fRsq (v 0)) s

/-- FSF_SQRT (R116). Writes the correctly rounded square root. -/
def execFsfSqrt (px : Option Pfx) (d : BitVec 7) (a : BitVec 7) (g : BitVec 4) (s : State) : Out :=
  alu (.fsfSqrt px d a g) (fun v => ffun ((info (.fsfSqrt px d a g)).rnd) fSqrt (v 0)) s

/-- FSF_EXP2 (R116). Writes the correctly rounded value of 2 to the power a. -/
def execFsfExp2 (px : Option Pfx) (d : BitVec 7) (a : BitVec 7) (g : BitVec 4) (s : State) : Out :=
  alu (.fsfExp2 px d a g) (fun v => ffun ((info (.fsfExp2 px d a g)).rnd) fExp2 (v 0)) s

/-- FSF_LOG2 (R116). Writes the correctly rounded base-2 logarithm. -/
def execFsfLog2 (px : Option Pfx) (d : BitVec 7) (a : BitVec 7) (g : BitVec 4) (s : State) : Out :=
  alu (.fsfLog2 px d a g) (fun v => ffun ((info (.fsfLog2 px d a g)).rnd) fLog2 (v 0)) s

/-- FSF_SINPI (R116). Writes the correctly rounded sine of pi times a. -/
def execFsfSinpi (px : Option Pfx) (d : BitVec 7) (a : BitVec 7) (g : BitVec 4) (s : State) : Out :=
  alu (.fsfSinpi px d a g) (fun v => ffun ((info (.fsfSinpi px d a g)).rnd) fSinpi (v 0)) s

/-- FSF_COSPI (R116). Writes the correctly rounded cosine of pi times a. -/
def execFsfCospi (px : Option Pfx) (d : BitVec 7) (a : BitVec 7) (g : BitVec 4) (s : State) : Out :=
  alu (.fsfCospi px d a g) (fun v => ffun ((info (.fsfCospi px d a g)).rnd) fCospi (v 0)) s

/-- FSF_TANH (R116). Writes the correctly rounded hyperbolic tangent. -/
def execFsfTanh (px : Option Pfx) (d : BitVec 7) (a : BitVec 7) (g : BitVec 4) (s : State) : Out :=
  alu (.fsfTanh px d a g) (fun v => ffun ((info (.fsfTanh px d a g)).rnd) fTanh (v 0)) s

/-- FSF_ABS (R116). Clears the sign bit. -/
def execFsfAbs (px : Option Pfx) (d : BitVec 7) (a : BitVec 7) (g : BitVec 4) (s : State) : Out :=
  alu (.fsfAbs px d a g) (fun v => ffun ((info (.fsfAbs px d a g)).rnd) FVal.abs (v 0)) s

/-- FSF_NEG (R116). Inverts the sign bit. -/
def execFsfNeg (px : Option Pfx) (d : BitVec 7) (a : BitVec 7) (g : BitVec 4) (s : State) : Out :=
  alu (.fsfNeg px d a g) (fun v => ffun ((info (.fsfNeg px d a g)).rnd) FVal.neg (v 0)) s

/-- FSF_FRACT (R117). Writes a minus floor(a), rounded once. -/
def execFsfFract (px : Option Pfx) (d : BitVec 7) (a : BitVec 7) (g : BitVec 4) (s : State) : Out :=
  alu (.fsfFract px d a g) (fun v => ffun ((info (.fsfFract px d a g)).rnd) fFract (v 0)) s

/-- FSF_FLOOR (R117). Writes the largest integral value not above a. -/
def execFsfFloor (px : Option Pfx) (d : BitVec 7) (a : BitVec 7) (g : BitVec 4) (s : State) : Out :=
  alu (.fsfFloor px d a g) (fun v => ffun ((info (.fsfFloor px d a g)).rnd) fFloor (v 0)) s

/-- FSF_CEIL (R117). Writes the smallest integral value not below a. -/
def execFsfCeil (px : Option Pfx) (d : BitVec 7) (a : BitVec 7) (g : BitVec 4) (s : State) : Out :=
  alu (.fsfCeil px d a g) (fun v => ffun ((info (.fsfCeil px d a g)).rnd) fCeil (v 0)) s

/-- FSF_TRUNC (R117). Removes the fraction of a, rounding toward zero. -/
def execFsfTrunc (px : Option Pfx) (d : BitVec 7) (a : BitVec 7) (g : BitVec 4) (s : State) : Out :=
  alu (.fsfTrunc px d a g) (fun v => ffun ((info (.fsfTrunc px d a g)).rnd) fTrunc (v 0)) s

/-- FSF_RINT (R117). Rounds a to an integral value under the rounding mode. -/
def execFsfRint (px : Option Pfx) (d : BitVec 7) (a : BitVec 7) (g : BitVec 4) (s : State) : Out :=
  alu (.fsfRint px d a g) (fun v => ffun ((info (.fsfRint px d a g)).rnd) (fRint ((info (.fsfRint px d a g)).rnd)) (v 0)) s

/-- BADD2 (R118). Adds packed BF16 pairs. -/
def execBadd2 (px : Option Pfx) (d : BitVec 7) (a : BitVec 7) (b : BitVec 7) (g : BitVec 4) (s : State) : Out :=
  alu (.badd2 px d a b g) (fun v => packed2 .bf16 ((info (.badd2 px d a b g)).rnd) (fun x y _ => FVal.add ((info (.badd2 px d a b g)).rnd) x y) (v 0) (v 1) 0) s

/-- BMUL2 (R118). Multiplies packed BF16 pairs. -/
def execBmul2 (px : Option Pfx) (d : BitVec 7) (a : BitVec 7) (b : BitVec 7) (g : BitVec 4) (s : State) : Out :=
  alu (.bmul2 px d a b g) (fun v => packed2 .bf16 ((info (.bmul2 px d a b g)).rnd) (fun x y _ => x.mul y) (v 0) (v 1) 0) s

/-- BFMA2 (R118). Performs a fused multiply-add on packed BF16 pairs. -/
def execBfma2 (px : Option Pfx) (d : BitVec 7) (a : BitVec 7) (b : BitVec 7) (g : BitVec 4) (s : State) : Out :=
  alu (.bfma2 px d a b g) (fun v => packed2 .bf16 ((info (.bfma2 px d a b g)).rnd) (fun x y z => FVal.add ((info (.bfma2 px d a b g)).rnd) (x.mul y) z) (v 0) (v 1) (v 2)) s

/-- HADD2 (R118). Adds packed FP16 pairs. -/
def execHadd2 (px : Option Pfx) (d : BitVec 7) (a : BitVec 7) (b : BitVec 7) (g : BitVec 4) (s : State) : Out :=
  alu (.hadd2 px d a b g) (fun v => packed2 .fp16 ((info (.hadd2 px d a b g)).rnd) (fun x y _ => FVal.add ((info (.hadd2 px d a b g)).rnd) x y) (v 0) (v 1) 0) s

/-- HMUL2 (R118). Multiplies packed FP16 pairs. -/
def execHmul2 (px : Option Pfx) (d : BitVec 7) (a : BitVec 7) (b : BitVec 7) (g : BitVec 4) (s : State) : Out :=
  alu (.hmul2 px d a b g) (fun v => packed2 .fp16 ((info (.hmul2 px d a b g)).rnd) (fun x y _ => x.mul y) (v 0) (v 1) 0) s

/-- HFMA2 (R118). Performs a fused multiply-add on packed FP16 pairs. -/
def execHfma2 (px : Option Pfx) (d : BitVec 7) (a : BitVec 7) (b : BitVec 7) (g : BitVec 4) (s : State) : Out :=
  alu (.hfma2 px d a b g) (fun v => packed2 .fp16 ((info (.hfma2 px d a b g)).rnd) (fun x y z => FVal.add ((info (.hfma2 px d a b g)).rnd) (x.mul y) z) (v 0) (v 1) (v 2)) s

/-- DOT4I (R119). Adds the dot product of four i8 pairs to c. -/
def execDot4i (px : Option Pfx) (d : BitVec 7) (a : BitVec 7) (b : BitVec 7) (g : BitVec 4) (s : State) : Out :=
  alu (.dot4i px d a b g) (fun v => dotI (sext 8) (v 0) (v 1) (v 2)) s

/-- DOT2B (R119). Adds the BF16 two-way dot product to an FP32 c with one rounding. -/
def execDot2b (px : Option Pfx) (d : BitVec 7) (a : BitVec 7) (b : BitVec 7) (g : BitVec 4) (s : State) : Out :=
  alu (.dot2b px d a b g) (fun v => dotF .bf16 16 2 ((info (.dot2b px d a b g)).rnd) (v 0) (v 1) (v 2)) s

/-- DOT4E4 (R119). Adds the E4M3 four-way dot product to an FP32 c with one rounding. -/
def execDot4e4 (px : Option Pfx) (d : BitVec 7) (a : BitVec 7) (b : BitVec 7) (g : BitVec 4) (s : State) : Out :=
  alu (.dot4e4 px d a b g) (fun v => dotF .e4m3 8 4 ((info (.dot4e4 px d a b g)).rnd) (v 0) (v 1) (v 2)) s

/-- DOT4E5 (R119). Adds the E5M2 four-way dot product to an FP32 c with one rounding. -/
def execDot4e5 (px : Option Pfx) (d : BitVec 7) (a : BitVec 7) (b : BitVec 7) (g : BitVec 4) (s : State) : Out :=
  alu (.dot4e5 px d a b g) (fun v => dotF .e5m2 8 4 ((info (.dot4e5 px d a b g)).rnd) (v 0) (v 1) (v 2)) s

/-- DSDOT4 (R119). Adds the dot product of four DS8 and four i8 elements to c. -/
def execDsdot4 (px : Option Pfx) (d : BitVec 7) (a : BitVec 7) (b : BitVec 7) (g : BitVec 4) (s : State) : Out :=
  alu (.dsdot4 px d a b g) (fun v => dotI ds8Value (v 0) (v 1) (v 2)) s

end Sys2Proof.Machine
end

