-- ==== Sys2Proof/Machine/Integer.lean ====
section
/-! DEFINITION. Integer arithmetic (spec/05, R106 to R108). -/

namespace Sys2Proof.Machine

/-- IADD (R106). Adds two registers, wrapping modulo 2^32. -/
def execIadd (px : Option Pfx) (d : BitVec 7) (a : BitVec 7) (b : BitVec 7) (g : BitVec 4) (s : State) : Out :=
  alu (.iadd px d a b g) (fun v => v 0 + v 1) s

/-- ISUB (R106). Subtracts register b from register a, wrapping modulo 2^32. -/
def execIsub (px : Option Pfx) (d : BitVec 7) (a : BitVec 7) (b : BitVec 7) (g : BitVec 4) (s : State) : Out :=
  alu (.isub px d a b g) (fun v => sub32 (v 0) (v 1)) s

/-- IADDI (R106). Adds a signed 7-bit immediate to a register. -/
def execIaddi (px : Option Pfx) (d : BitVec 7) (a : BitVec 7) (i : BitVec 7) (g : BitVec 4) (s : State) : Out :=
  alu (.iaddi px d a i g) (fun v => v 0 + immWord i) s

/-- IMUL (R106). Writes the low 32 bits of the product of two registers. -/
def execImul (px : Option Pfx) (d : BitVec 7) (a : BitVec 7) (b : BitVec 7) (g : BitVec 4) (s : State) : Out :=
  alu (.imul px d a b g) (fun v => v 0 * v 1) s

/-- IMULH (R106). Writes the high 32 bits of the signed product of two registers. -/
def execImulh (px : Option Pfx) (d : BitVec 7) (a : BitVec 7) (b : BitVec 7) (g : BitVec 4) (s : State) : Out :=
  alu (.imulh px d a b g) (fun v => wrap 64 (S (v 0) * S (v 1)) / 2 ^ 32) s

/-- IMULHN (R106). Writes the high 32 bits of the unsigned product of two registers. -/
def execImulhn (px : Option Pfx) (d : BitVec 7) (a : BitVec 7) (b : BitVec 7) (g : BitVec 4) (s : State) : Out :=
  alu (.imulhn px d a b g) (fun v => v 0 * v 1 / 2 ^ 32) s

/-- IMAD (R106). Multiplies a by b and adds c, wrapping modulo 2^32. -/
def execImad (px : Option Pfx) (d : BitVec 7) (a : BitVec 7) (b : BitVec 7) (g : BitVec 4) (s : State) : Out :=
  alu (.imad px d a b g) (fun v => v 0 * v 1 + v 2) s

/-- IADD64 (R107). Adds two register pairs modulo 2^64. -/
def execIadd64 (px : Option Pfx) (d : BitVec 7) (a : BitVec 7) (b : BitVec 7) (g : BitVec 4) (s : State) : Out :=
  alu (.iadd64 px d a b g) (fun v => v 0 + v 1) s

/-- ISUB64 (R107). Subtracts two register pairs modulo 2^64. -/
def execIsub64 (px : Option Pfx) (d : BitVec 7) (a : BitVec 7) (b : BitVec 7) (g : BitVec 4) (s : State) : Out :=
  alu (.isub64 px d a b g) (fun v => v 0 + 2 ^ 64 - v 1) s

/-- IMULW (R107). Writes the signed 64-bit product of two registers to a pair. -/
def execImulw (px : Option Pfx) (d : BitVec 7) (a : BitVec 7) (b : BitVec 7) (g : BitVec 4) (s : State) : Out :=
  alu (.imulw px d a b g) (fun v => wrap 64 (S (v 0) * S (v 1))) s

/-- NMULW (R107). Writes the unsigned 64-bit product of two registers to a pair. -/
def execNmulw (px : Option Pfx) (d : BitVec 7) (a : BitVec 7) (b : BitVec 7) (g : BitVec 4) (s : State) : Out :=
  alu (.nmulw px d a b g) (fun v => v 0 * v 1) s

/-- IMIN (R106). Writes the signed minimum of two registers. -/
def execImin (px : Option Pfx) (d : BitVec 7) (a : BitVec 7) (b : BitVec 7) (g : BitVec 4) (s : State) : Out :=
  alu (.imin px d a b g) (fun v => if S (v 0) ≤ S (v 1) then v 0 else v 1) s

/-- IMAX (R106). Writes the signed maximum of two registers. -/
def execImax (px : Option Pfx) (d : BitVec 7) (a : BitVec 7) (b : BitVec 7) (g : BitVec 4) (s : State) : Out :=
  alu (.imax px d a b g) (fun v => if S (v 0) ≤ S (v 1) then v 1 else v 0) s

/-- NMIN (R106). Writes the unsigned minimum of two registers. -/
def execNmin (px : Option Pfx) (d : BitVec 7) (a : BitVec 7) (b : BitVec 7) (g : BitVec 4) (s : State) : Out :=
  alu (.nmin px d a b g) (fun v => min (v 0) (v 1)) s

/-- NMAX (R106). Writes the unsigned maximum of two registers. -/
def execNmax (px : Option Pfx) (d : BitVec 7) (a : BitVec 7) (b : BitVec 7) (g : BitVec 4) (s : State) : Out :=
  alu (.nmax px d a b g) (fun v => max (v 0) (v 1)) s

/-- IMULI (R106). Multiplies a register by a signed 7-bit immediate. -/
def execImuli (px : Option Pfx) (d : BitVec 7) (a : BitVec 7) (i : BitVec 7) (g : BitVec 4) (s : State) : Out :=
  alu (.imuli px d a i g) (fun v => v 0 * immWord i) s

/-- IADDS (R106). Adds two registers with signed saturation. -/
def execIadds (px : Option Pfx) (d : BitVec 7) (a : BitVec 7) (b : BitVec 7) (g : BitVec 4) (s : State) : Out :=
  alu (.iadds px d a b g) (fun v => satS (S (v 0) + S (v 1))) s

/-- NADDS (R106). Adds two registers with unsigned saturation. -/
def execNadds (px : Option Pfx) (d : BitVec 7) (a : BitVec 7) (b : BitVec 7) (g : BitVec 4) (s : State) : Out :=
  alu (.nadds px d a b g) (fun v => satN ((v 0 : Int) + v 1)) s

/-- ISUBS (R106). Subtracts two registers with signed saturation. -/
def execIsubs (px : Option Pfx) (d : BitVec 7) (a : BitVec 7) (b : BitVec 7) (g : BitVec 4) (s : State) : Out :=
  alu (.isubs px d a b g) (fun v => satS (S (v 0) - S (v 1))) s

/-- EXT_IABS (R108). Writes the absolute value, modulo 2^32. -/
def execExtIabs (px : Option Pfx) (d : BitVec 7) (a : BitVec 7) (g : BitVec 4) (s : State) : Out :=
  alu (.extIabs px d a g) (fun v => (S (v 0)).natAbs) s

/-- EXT_INEG (R108). Writes the two's-complement negation. -/
def execExtIneg (px : Option Pfx) (d : BitVec 7) (a : BitVec 7) (g : BitVec 4) (s : State) : Out :=
  alu (.extIneg px d a g) (fun v => sub32 0 (v 0)) s

/-- EXT_NOT (R108). Writes the bitwise complement. -/
def execExtNot (px : Option Pfx) (d : BitVec 7) (a : BitVec 7) (g : BitVec 4) (s : State) : Out :=
  alu (.extNot px d a g) (fun v => notWord (v 0)) s

/-- EXT_SEXT8 (R108). Sign-extends the low 8 bits. -/
def execExtSext8 (px : Option Pfx) (d : BitVec 7) (a : BitVec 7) (g : BitVec 4) (s : State) : Out :=
  alu (.extSext8 px d a g) (fun v => wrap 32 (sext 8 (v 0))) s

/-- EXT_SEXT16 (R108). Sign-extends the low 16 bits. -/
def execExtSext16 (px : Option Pfx) (d : BitVec 7) (a : BitVec 7) (g : BitVec 4) (s : State) : Out :=
  alu (.extSext16 px d a g) (fun v => wrap 32 (sext 16 (v 0))) s

/-- EXT_ZEXT8 (R108). Zero-extends the low 8 bits. -/
def execExtZext8 (px : Option Pfx) (d : BitVec 7) (a : BitVec 7) (g : BitVec 4) (s : State) : Out :=
  alu (.extZext8 px d a g) (fun v => v 0 % 2 ^ 8) s

/-- EXT_ZEXT16 (R108). Zero-extends the low 16 bits. -/
def execExtZext16 (px : Option Pfx) (d : BitVec 7) (a : BitVec 7) (g : BitVec 4) (s : State) : Out :=
  alu (.extZext16 px d a g) (fun v => v 0 % 2 ^ 16) s

/-- EXT_FFS (R108). Writes the index of the lowest set bit, or 32. -/
def execExtFfs (px : Option Pfx) (d : BitVec 7) (a : BitVec 7) (g : BitVec 4) (s : State) : Out :=
  alu (.extFfs px d a g) (fun v => lowestBit (v 0)) s

end Sys2Proof.Machine
end

