-- ==== Sys2Proof/Machine/Lanes.lean ====
section
/-! DEFINITION. Moves, cross-lane instructions and system registers (spec/05, R131 to R138). -/

namespace Sys2Proof.Machine

/-- MOV (R131). Copies a register, or copies a pending form. -/
def execMov (px : Option Pfx) (d : BitVec 7) (a : BitVec 7) (g : BitVec 4) (s : State) : Out :=
  alu (.mov px d a g) (fun v => v 0) s

/-- MOVI (R131). Writes a sign-extended 14-bit immediate. -/
def execMovi (px : Option Pfx) (d : BitVec 7) (i : BitVec 14) (g : BitVec 4) (s : State) : Out :=
  alu (.movi px d i g) (fun _ => wrap 32 i.toInt) s

/-- LDI (R131). Writes the literal word that follows the instruction. -/
def execLdi (px : Option Pfx) (d : BitVec 7) (g : BitVec 4) (lit : Word) (s : State) : Out :=
  alu (.ldi px d g lit) (fun _ => lit.toNat) s

/-- LXOR (R133). Takes a from lane l XOR K. -/
def execLxor (px : Option Pfx) (d : BitVec 7) (a : BitVec 7) (k : BitVec 7) (g : BitVec 4) (s : State) : Out :=
  aluAt (.lxor px d a k g) (fun c u l _ v => (beforeSlot u (c.win a.toNat) ((sourceLane (.lxor px d a k g) l (v 1)).getD l)).val.toNat) s

/-- LGET (R133). Takes a from the lane that b indexes. -/
def execLget (px : Option Pfx) (d : BitVec 7) (a : BitVec 7) (b : BitVec 7) (g : BitVec 4) (s : State) : Out :=
  aluAt (.lget px d a b g) (fun c u l _ _ => (beforeSlot u (c.win a.toNat) ((sourceLane (.lget px d a b g) l (beforeSlot u (c.win b.toNat) l).val.toNat).getD l)).val.toNat) s

/-- LROT (R133). Rotates a across all 32 lanes. -/
def execLrot (px : Option Pfx) (d : BitVec 7) (a : BitVec 7) (k : BitVec 7) (g : BitVec 4) (s : State) : Out :=
  aluAt (.lrot px d a k g) (fun c u l _ v => (beforeSlot u (c.win a.toNat) ((sourceLane (.lrot px d a k g) l (v 1)).getD l)).val.toNat) s

/-- LROTS (R133). Rotates a within aligned segments of W lanes. -/
def execLrots (px : Option Pfx) (d : BitVec 7) (a : BitVec 7) (w : BitVec 2) (k : BitVec 5) (g : BitVec 4) (s : State) : Out :=
  aluAt (.lrots px d a w k g) (fun c u l _ v => (beforeSlot u (c.win a.toNat) ((sourceLane (.lrots px d a w k g) l (v 1)).getD l)).val.toNat) s

/-- CONS_NONE (R134). Sets a pair true when the predicate is false in every active lane. -/
def execConsNone (px : Option Pfx) (p : BitVec 3) (q : BitVec 4) (g : BitVec 4) (s : State) : Out :=
  aluPair (.consNone px p q g) (fun c u _ _ => !(c.active (.consNone px p q g) u.lanes).any (fun j => c.pred j q.toNat)) s

/-- CONS_EVERY (R134). Sets a pair true when the predicate is true in every active lane. -/
def execConsEvery (px : Option Pfx) (p : BitVec 3) (q : BitVec 4) (g : BitVec 4) (s : State) : Out :=
  aluPair (.consEvery px p q g) (fun c u _ _ => (c.active (.consEvery px p q g) u.lanes).all (fun j => c.pred j q.toNat)) s

/-- CONS_SAME (R134). Sets a pair true when every active lane holds the same value. -/
def execConsSame (px : Option Pfx) (p : BitVec 3) (a : BitVec 7) (g : BitVec 4) (s : State) : Out :=
  aluPair (.consSame px p a g) (fun c u _ v => (c.active (.consSame px p a g) u.lanes).all (fun j => (c.slot (c.win a.toNat) j).val.toNat = v 0)) s

/-- CONS_MASK (R134). Writes the mask of active lanes in which the predicate is true. -/
def execConsMask (px : Option Pfx) (d : BitVec 7) (q : BitVec 4) (g : BitVec 4) (s : State) : Out :=
  aluAt (.consMask px d q g) (fun c u _ _ _ => (maskOf ((c.active (.consMask px d q g) u.lanes).filter (fun j => c.pred j q.toNat))).toNat) s

/-- CONS_PEERS (R134). Writes the mask of active lanes that hold an equal value. -/
def execConsPeers (px : Option Pfx) (d : BitVec 7) (a : BitVec 7) (g : BitVec 4) (s : State) : Out :=
  aluAt (.consPeers px d a g) (fun c u _ _ v => (maskOf ((c.active (.consPeers px d a g) u.lanes).filter (fun j => (c.slot (c.win a.toNat) j).val.toNat = v 0))).toNat) s

/-- CONS_COUNT (R134). Writes the number of active lanes in which the predicate is true. -/
def execConsCount (px : Option Pfx) (d : BitVec 7) (q : BitVec 4) (g : BitVec 4) (s : State) : Out :=
  aluAt (.consCount px d q g) (fun c u _ _ _ => ((c.active (.consCount px d q g) u.lanes).filter (fun j => c.pred j q.toNat)).length) s

/-- CONS_FIRST (R134). Writes the lowest active lane in which the predicate is true. -/
def execConsFirst (px : Option Pfx) (d : BitVec 7) (q : BitVec 4) (g : BitVec 4) (s : State) : Out :=
  aluAt (.consFirst px d q g) (fun c u _ _ _ => (((c.active (.consFirst px d q g) u.lanes).filter (fun j => c.pred j q.toNat))[0]?).getD 32) s

/-- The value of a system register in a lane (R59, R135 to R137). -/
def State.sysReg (s : State) (k n l : Nat) : Nat :=
  let c := s.crew k
  match n with
  | 0 => c.wb
  | 1 => l
  | 2 => c.idx
  | 3 => blockId c.block
  | 4 => (s.record (crewSett k) (crewRec k)).gang
  | 5 => c.status.toNat
  | 6 => c.symmask
  | 7 => s.time (crewSett k) % 2 ^ 32
  | 8 => s.time (crewSett k) / 2 ^ 32
  | 9 => c.trapCode.toNat
  | 10 => c.trapPc.toNat % 2 ^ 32
  | 11 => c.trapInfo.toNat
  | 12 => c.trapPc.toNat / 2 ^ 32
  | _ => 0

/-- RDSYS (R135). Reads a system register into d. -/
def execRdsys (px : Option Pfx) (d : BitVec 7) (n : BitVec 7) (g : BitVec 4) (s : State) : Out :=
  aluAt (.rdsys px d n g) (fun _ u l _ _ => s.sysReg u.crew n.toNat l) s

/-- A write of a system register (R135, R136, R138). -/
def Crew.writeSys (c : Crew) (n : Nat) (w : Word) : Crew :=
  match n with
  | 5 => c.clearStatus w
  | 9 => { c with trapCode := w }
  | 10 => { c with trapPc := c.trapPc / 4294967296 * 4294967296 + w.setWidth 64 }
  | 11 => { c with trapInfo := w }
  | 12 => { c with trapPc := w.setWidth 64 * 4294967296 + c.trapPc % 4294967296 }
  | _ => c

/-- Writes a system register with the OR of the active lanes (R135, R138). -/
def execWrsys (px : Option Pfx) (a : BitVec 7) (n : BitVec 7) (g : BitVec 4) (s : State) : Out :=
  let i : Instr := .wrsys px a n g
  s.issue i (fun u =>
    let c := s.crew u.crew
    let act := c.active i u.lanes
    let w := act.foldl (fun w l => w ||| (c.slot (c.win a.toNat) l).val) 0
    let d := c.countReads (info i).readRegs act
    .next (s.finish u i (if act = [] then d else d.writeSys n.toNat w)))

end Sys2Proof.Machine
end

