-- ==== Sys2Proof/Machine/Logic.lean ====
section
/-! DEFINITION. Logic, shifts and bit fields (spec/05, R109 to R113). -/

namespace Sys2Proof.Machine

/-- AND (R109). Writes the bitwise AND of two registers. -/
def execAnd (px : Option Pfx) (d : BitVec 7) (a : BitVec 7) (b : BitVec 7) (g : BitVec 4) (s : State) : Out :=
  alu (.and px d a b g) (fun v => v 0 &&& v 1) s

/-- OR (R109). Writes the bitwise OR of two registers. -/
def execOr (px : Option Pfx) (d : BitVec 7) (a : BitVec 7) (b : BitVec 7) (g : BitVec 4) (s : State) : Out :=
  alu (.or px d a b g) (fun v => v 0 ||| v 1) s

/-- XOR (R109). Writes the bitwise XOR of two registers. -/
def execXor (px : Option Pfx) (d : BitVec 7) (a : BitVec 7) (b : BitVec 7) (g : BitVec 4) (s : State) : Out :=
  alu (.xor px d a b g) (fun v => v 0 ^^^ v 1) s

/-- ANDN (R109). Writes a AND NOT b. -/
def execAndn (px : Option Pfx) (d : BitVec 7) (a : BitVec 7) (b : BitVec 7) (g : BitVec 4) (s : State) : Out :=
  alu (.andn px d a b g) (fun v => v 0 &&& notWord (v 1)) s

/-- ANDI (R109). Writes the AND of a register and a signed immediate. -/
def execAndi (px : Option Pfx) (d : BitVec 7) (a : BitVec 7) (i : BitVec 7) (g : BitVec 4) (s : State) : Out :=
  alu (.andi px d a i g) (fun v => v 0 &&& immWord i) s

/-- ORI (R109). Writes the OR of a register and a signed immediate. -/
def execOri (px : Option Pfx) (d : BitVec 7) (a : BitVec 7) (i : BitVec 7) (g : BitVec 4) (s : State) : Out :=
  alu (.ori px d a i g) (fun v => v 0 ||| immWord i) s

/-- XORI (R109). Writes the XOR of a register and a signed immediate. -/
def execXori (px : Option Pfx) (d : BitVec 7) (a : BitVec 7) (i : BitVec 7) (g : BitVec 4) (s : State) : Out :=
  alu (.xori px d a i g) (fun v => v 0 ^^^ immWord i) s

/-- SHL (R109). Shifts left by a register amount, giving 0 for amounts of 32 or more. -/
def execShl (px : Option Pfx) (d : BitVec 7) (a : BitVec 7) (b : BitVec 7) (g : BitVec 4) (s : State) : Out :=
  alu (.shl px d a b g) (fun v => shl32 (v 0) (v 1)) s

/-- SHR (R109). Shifts right logically by a register amount. -/
def execShr (px : Option Pfx) (d : BitVec 7) (a : BitVec 7) (b : BitVec 7) (g : BitVec 4) (s : State) : Out :=
  alu (.shr px d a b g) (fun v => shr32 (v 0) (v 1)) s

/-- SAR (R109). Shifts right arithmetically by a register amount. -/
def execSar (px : Option Pfx) (d : BitVec 7) (a : BitVec 7) (b : BitVec 7) (g : BitVec 4) (s : State) : Out :=
  alu (.sar px d a b g) (fun v => sar32 (v 0) (v 1)) s

/-- SHLI (R109). Shifts left by an immediate from 0 to 31. -/
def execShli (px : Option Pfx) (d : BitVec 7) (a : BitVec 7) (k : BitVec 7) (g : BitVec 4) (s : State) : Out :=
  alu (.shli px d a k g) (fun v => shl32 (v 0) k.toNat) s

/-- SHRI (R109). Shifts right logically by an immediate from 0 to 31. -/
def execShri (px : Option Pfx) (d : BitVec 7) (a : BitVec 7) (k : BitVec 7) (g : BitVec 4) (s : State) : Out :=
  alu (.shri px d a k g) (fun v => shr32 (v 0) k.toNat) s

/-- SARI (R109). Shifts right arithmetically by an immediate from 0 to 31. -/
def execSari (px : Option Pfx) (d : BitVec 7) (a : BitVec 7) (k : BitVec 7) (g : BitVec 4) (s : State) : Out :=
  alu (.sari px d a k g) (fun v => sar32 (v 0) k.toNat) s

/-- FSHL (R111). Funnel-shifts left over the low w bits of a and the old d. -/
def execFshl (px : Option Pfx) (d : BitVec 7) (a : BitVec 7) (b : BitVec 7) (g : BitVec 4) (s : State) : Out :=
  alu (.fshl px d a b g) (fun v => funnel true (v 0) (v 2) (v 1)) s

/-- FSHR (R111). Funnel-shifts right over the low w bits of a and the old d. -/
def execFshr (px : Option Pfx) (d : BitVec 7) (a : BitVec 7) (b : BitVec 7) (g : BitVec 4) (s : State) : Out :=
  alu (.fshr px d a b g) (fun v => funnel false (v 0) (v 2) (v 1)) s

/-- BFXS (R112). Extracts a bit field and sign-extends it. -/
def execBfxs (px : Option Pfx) (d : BitVec 7) (a : BitVec 7) (b : BitVec 7) (g : BitVec 4) (s : State) : Out :=
  alu (.bfxs px d a b g) (fun v => fieldS (v 0) (v 1)) s

/-- BFXN (R112). Extracts a bit field and zero-extends it. -/
def execBfxn (px : Option Pfx) (d : BitVec 7) (a : BitVec 7) (b : BitVec 7) (g : BitVec 4) (s : State) : Out :=
  alu (.bfxn px d a b g) (fun v => fieldN (v 0) (v 1)) s

/-- BFI (R112). Inserts the low bits of a into a field of the old d. -/
def execBfi (px : Option Pfx) (d : BitVec 7) (a : BitVec 7) (b : BitVec 7) (g : BitVec 4) (s : State) : Out :=
  alu (.bfi px d a b g) (fun v => insertField (v 2) (v 0) (v 1)) s

/-- POPC (R109). Counts the set bits of a register. -/
def execPopc (px : Option Pfx) (d : BitVec 7) (a : BitVec 7) (g : BitVec 4) (s : State) : Out :=
  alu (.popc px d a g) (fun v => popCount (v 0)) s

/-- CLZ (R109). Counts the leading zero bits of a register. -/
def execClz (px : Option Pfx) (d : BitVec 7) (a : BitVec 7) (g : BitVec 4) (s : State) : Out :=
  alu (.clz px d a g) (fun v => leadingZeros (v 0)) s

/-- BREV (R109). Reverses the bits of a register. -/
def execBrev (px : Option Pfx) (d : BitVec 7) (a : BitVec 7) (g : BitVec 4) (s : State) : Out :=
  alu (.brev px d a g) (fun v => bitReverse (v 0)) s

/-- BMIX (R113). Builds each result byte from a byte of A or of the old d under a mix control. -/
def execBmix (px : Option Pfx) (d : BitVec 7) (a : BitVec 7) (b : BitVec 7) (g : BitVec 4) (s : State) : Out :=
  alu (.bmix px d a b g) (fun v => bmix (v 0) (v 2) (v 1)) s

end Sys2Proof.Machine
end

