-- ==== Sys2Proof/Machine/Predicate.lean ====
section
/-! DEFINITION. Compares and predicates (spec/05, R125 to R130). -/

namespace Sys2Proof.Machine

/-- ICMP (R125). Compares two registers as signed and writes a predicate pair. -/
def execIcmp (px : Option Pfx) (c : BitVec 3) (p : BitVec 3) (a : BitVec 7) (b : BitVec 7) (g : BitVec 4) (s : State) : Out :=
  aluPair (.icmp px c p a b g) (fun _ _ _ v => condInt c.toNat (S (v 0)) (S (v 1))) s

/-- NCMP (R125). Compares two registers as unsigned and writes a predicate pair. -/
def execNcmp (px : Option Pfx) (c : BitVec 3) (p : BitVec 3) (a : BitVec 7) (b : BitVec 7) (g : BitVec 4) (s : State) : Out :=
  aluPair (.ncmp px c p a b g) (fun _ _ _ v => condInt c.toNat (v 0) (v 1)) s

/-- FCMP (R126). Compares two FP32 values exactly and writes a predicate pair. -/
def execFcmp (px : Option Pfx) (c : BitVec 3) (p : BitVec 3) (a : BitVec 7) (b : BitVec 7) (g : BitVec 4) (s : State) : Out :=
  aluPair (.fcmp px c p a b g) (fun _ _ _ v => condFloat c.toNat (v 0) (v 1)) s

/-- ICMPI (R125). Compares a register with a signed immediate and writes a predicate pair. -/
def execIcmpi (px : Option Pfx) (c : BitVec 3) (p : BitVec 3) (a : BitVec 7) (i : BitVec 7) (g : BitVec 4) (s : State) : Out :=
  aluPair (.icmpi px c p a i g) (fun _ _ _ v => condInt c.toNat (S (v 0)) i.toInt) s

/-- PAND (R128). Writes the AND of two predicates to a predicate pair. -/
def execPand (px : Option Pfx) (p : BitVec 3) (i : BitVec 4) (j : BitVec 4) (g : BitVec 4) (s : State) : Out :=
  aluPair (.pand px p i j g) (fun k _ l _ => k.pred l i.toNat && k.pred l j.toNat) s

/-- POR (R128). Writes the OR of two predicates to a predicate pair. -/
def execPor (px : Option Pfx) (p : BitVec 3) (i : BitVec 4) (j : BitVec 4) (g : BitVec 4) (s : State) : Out :=
  aluPair (.por px p i j g) (fun k _ l _ => k.pred l i.toNat || k.pred l j.toNat) s

/-- PXOR (R128). Writes the XOR of two predicates to a predicate pair. -/
def execPxor (px : Option Pfx) (p : BitVec 3) (i : BitVec 4) (j : BitVec 4) (g : BitVec 4) (s : State) : Out :=
  aluPair (.pxor px p i j g) (fun k _ l _ => k.pred l i.toNat != k.pred l j.toNat) s

/-- SEL (R129). Selects a or b per lane under the predicate named in g. -/
def execSel (px : Option Pfx) (d : BitVec 7) (a : BitVec 7) (b : BitVec 7) (g : BitVec 4) (s : State) : Out :=
  aluAt (.sel px d a b g) (fun c _ l _ v => if 11 < g.toNat || c.pred l g.toNat then v 0 else v 1) s

/-- PTOX (R130). Packs the twelve predicates into a register. -/
def execPtox (px : Option Pfx) (d : BitVec 7) (g : BitVec 4) (s : State) : Out :=
  aluAt (.ptox px d g) (fun c _ l _ _ => (Tab.get 0 c.preds l).toNat) s

/-- The predicates after XTOP (R130): all twelve from the word, cleared in masked lanes under mz = 1. -/
def Crew.computeXtop (c : Crew) (i : Instr) (u : Issue) : Crew :=
  let f := info i
  let act := c.active i u.lanes
  let rs := act.map (fun l => (l, (c.operandValues f (0, 0) l)[0]?.getD 0))
  let zer := c.zeroed i u.lanes
  let c := c.countReads f.readRegs act
  let c := rs.foldl (fun c r => { c with preds := Tab.set 0 c.preds r.1 (BitVec.ofNat 12 r.2) }) c
  zer.foldl (fun c l => { c with preds := Tab.set 0 c.preds l 0 }) c

/-- Writes the 12 predicates of a lane from a register (R130). -/
def execXtop (px : Option Pfx) (a : BitVec 7) (g : BitVec 4) (s : State) : Out :=
  s.issue (.xtop px a g) (fun u => .next (s.finish u (.xtop px a g) ((s.crew u.crew).computeXtop (.xtop px a g) u)))

end Sys2Proof.Machine
end

