-- ==== Sys2Proof/Machine/Dispatch.lean ====
section
/-! DEFINITION. One arm per constructor of `Sys2Proof.Instr`: each is one direct call of its meaning. -/

namespace Sys2Proof.Machine

def exec (i : Instr) (s : State) : Host.Outcome State Fault Refusal :=
  match i with
  | .iadd px d a b g => Sys2Proof.Machine.execIadd px d a b g s
  | .isub px d a b g => Sys2Proof.Machine.execIsub px d a b g s
  | .iaddi px d a v3 g => Sys2Proof.Machine.execIaddi px d a v3 g s
  | .imul px d a b g => Sys2Proof.Machine.execImul px d a b g s
  | .imulh px d a b g => Sys2Proof.Machine.execImulh px d a b g s
  | .imulhn px d a b g => Sys2Proof.Machine.execImulhn px d a b g s
  | .imad px d a b g => Sys2Proof.Machine.execImad px d a b g s
  | .iadd64 px d a b g => Sys2Proof.Machine.execIadd64 px d a b g s
  | .isub64 px d a b g => Sys2Proof.Machine.execIsub64 px d a b g s
  | .imulw px d a b g => Sys2Proof.Machine.execImulw px d a b g s
  | .nmulw px d a b g => Sys2Proof.Machine.execNmulw px d a b g s
  | .imin px d a b g => Sys2Proof.Machine.execImin px d a b g s
  | .imax px d a b g => Sys2Proof.Machine.execImax px d a b g s
  | .nmin px d a b g => Sys2Proof.Machine.execNmin px d a b g s
  | .nmax px d a b g => Sys2Proof.Machine.execNmax px d a b g s
  | .imuli px d a v3 g => Sys2Proof.Machine.execImuli px d a v3 g s
  | .iadds px d a b g => Sys2Proof.Machine.execIadds px d a b g s
  | .nadds px d a b g => Sys2Proof.Machine.execNadds px d a b g s
  | .isubs px d a b g => Sys2Proof.Machine.execIsubs px d a b g s
  | .and px d a b g => Sys2Proof.Machine.execAnd px d a b g s
  | .or px d a b g => Sys2Proof.Machine.execOr px d a b g s
  | .xor px d a b g => Sys2Proof.Machine.execXor px d a b g s
  | .andn px d a b g => Sys2Proof.Machine.execAndn px d a b g s
  | .andi px d a v3 g => Sys2Proof.Machine.execAndi px d a v3 g s
  | .ori px d a v3 g => Sys2Proof.Machine.execOri px d a v3 g s
  | .xori px d a v3 g => Sys2Proof.Machine.execXori px d a v3 g s
  | .shl px d a b g => Sys2Proof.Machine.execShl px d a b g s
  | .shr px d a b g => Sys2Proof.Machine.execShr px d a b g s
  | .sar px d a b g => Sys2Proof.Machine.execSar px d a b g s
  | .shli px d a k g => Sys2Proof.Machine.execShli px d a k g s
  | .shri px d a k g => Sys2Proof.Machine.execShri px d a k g s
  | .sari px d a k g => Sys2Proof.Machine.execSari px d a k g s
  | .fshl px d a b g => Sys2Proof.Machine.execFshl px d a b g s
  | .fshr px d a b g => Sys2Proof.Machine.execFshr px d a b g s
  | .bfxs px d a b g => Sys2Proof.Machine.execBfxs px d a b g s
  | .bfxn px d a b g => Sys2Proof.Machine.execBfxn px d a b g s
  | .bfi px d a b g => Sys2Proof.Machine.execBfi px d a b g s
  | .popc px d a g => Sys2Proof.Machine.execPopc px d a g s
  | .clz px d a g => Sys2Proof.Machine.execClz px d a g s
  | .brev px d a g => Sys2Proof.Machine.execBrev px d a g s
  | .bmix px d a b g => Sys2Proof.Machine.execBmix px d a b g s
  | .fadd px d a b g => Sys2Proof.Machine.execFadd px d a b g s
  | .fsub px d a b g => Sys2Proof.Machine.execFsub px d a b g s
  | .fmul px d a b g => Sys2Proof.Machine.execFmul px d a b g s
  | .ffma px d a b g => Sys2Proof.Machine.execFfma px d a b g s
  | .fmin px d a b g => Sys2Proof.Machine.execFmin px d a b g s
  | .fmax px d a b g => Sys2Proof.Machine.execFmax px d a b g s
  | .fsfRcp px d a g => Sys2Proof.Machine.execFsfRcp px d a g s
  | .fsfRsq px d a g => Sys2Proof.Machine.execFsfRsq px d a g s
  | .fsfSqrt px d a g => Sys2Proof.Machine.execFsfSqrt px d a g s
  | .fsfExp2 px d a g => Sys2Proof.Machine.execFsfExp2 px d a g s
  | .fsfLog2 px d a g => Sys2Proof.Machine.execFsfLog2 px d a g s
  | .fsfSinpi px d a g => Sys2Proof.Machine.execFsfSinpi px d a g s
  | .fsfCospi px d a g => Sys2Proof.Machine.execFsfCospi px d a g s
  | .fsfTanh px d a g => Sys2Proof.Machine.execFsfTanh px d a g s
  | .fsfAbs px d a g => Sys2Proof.Machine.execFsfAbs px d a g s
  | .fsfNeg px d a g => Sys2Proof.Machine.execFsfNeg px d a g s
  | .fsfFract px d a g => Sys2Proof.Machine.execFsfFract px d a g s
  | .fsfFloor px d a g => Sys2Proof.Machine.execFsfFloor px d a g s
  | .fsfCeil px d a g => Sys2Proof.Machine.execFsfCeil px d a g s
  | .fsfTrunc px d a g => Sys2Proof.Machine.execFsfTrunc px d a g s
  | .fsfRint px d a g => Sys2Proof.Machine.execFsfRint px d a g s
  | .badd2 px d a b g => Sys2Proof.Machine.execBadd2 px d a b g s
  | .bmul2 px d a b g => Sys2Proof.Machine.execBmul2 px d a b g s
  | .bfma2 px d a b g => Sys2Proof.Machine.execBfma2 px d a b g s
  | .hadd2 px d a b g => Sys2Proof.Machine.execHadd2 px d a b g s
  | .hmul2 px d a b g => Sys2Proof.Machine.execHmul2 px d a b g s
  | .hfma2 px d a b g => Sys2Proof.Machine.execHfma2 px d a b g s
  | .dot4i px d a b g => Sys2Proof.Machine.execDot4i px d a b g s
  | .dot2b px d a b g => Sys2Proof.Machine.execDot2b px d a b g s
  | .dot4e4 px d a b g => Sys2Proof.Machine.execDot4e4 px d a b g s
  | .dot4e5 px d a b g => Sys2Proof.Machine.execDot4e5 px d a b g s
  | .cvt px d a v v4 f g => Sys2Proof.Machine.execCvt px d a v v4 f g s
  | .cvtmx px d a v3 e g => Sys2Proof.Machine.execCvtmx px d a v3 e g s
  | .qmx px d a v3 e g => Sys2Proof.Machine.execQmx px d a v3 e g s
  | .mxsclE4m3 px d a g => Sys2Proof.Machine.execMxsclE4m3 px d a g s
  | .mxsclE5m2 px d a g => Sys2Proof.Machine.execMxsclE5m2 px d a g s
  | .mxsclE2m3 px d a g => Sys2Proof.Machine.execMxsclE2m3 px d a g s
  | .mxsclE3m2 px d a g => Sys2Proof.Machine.execMxsclE3m2 px d a g s
  | .mxsclE2m1 px d a g => Sys2Proof.Machine.execMxsclE2m1 px d a g s
  | .mxsclMxint8 px d a g => Sys2Proof.Machine.execMxsclMxint8 px d a g s
  | .dsmul px d a b g => Sys2Proof.Machine.execDsmul px d a b g s
  | .dscvtFromf32 px d a v3 g => Sys2Proof.Machine.execDscvtFromf32 px d a v3 g s
  | .dscvtTof32 px d a v3 g => Sys2Proof.Machine.execDscvtTof32 px d a v3 g s
  | .dscvtFromi32 px d a v3 g => Sys2Proof.Machine.execDscvtFromi32 px d a v3 g s
  | .dscvtToi32 px d a v3 g => Sys2Proof.Machine.execDscvtToi32 px d a v3 g s
  | .dscvtCanon px d a g => Sys2Proof.Machine.execDscvtCanon px d a g s
  | .dsdot4 px d a b g => Sys2Proof.Machine.execDsdot4 px d a b g s
  | .icmp px c p a b g => Sys2Proof.Machine.execIcmp px c p a b g s
  | .ncmp px c p a b g => Sys2Proof.Machine.execNcmp px c p a b g s
  | .fcmp px c p a b g => Sys2Proof.Machine.execFcmp px c p a b g s
  | .icmpi px c p a v4 g => Sys2Proof.Machine.execIcmpi px c p a v4 g s
  | .pand px p v2 j g => Sys2Proof.Machine.execPand px p v2 j g s
  | .por px p v2 j g => Sys2Proof.Machine.execPor px p v2 j g s
  | .pxor px p v2 j g => Sys2Proof.Machine.execPxor px p v2 j g s
  | .sel px d a b g => Sys2Proof.Machine.execSel px d a b g s
  | .ptox px d g => Sys2Proof.Machine.execPtox px d g s
  | .xtop px a g => Sys2Proof.Machine.execXtop px a g s
  | .mov px d a g => Sys2Proof.Machine.execMov px d a g s
  | .movi px d v2 g => Sys2Proof.Machine.execMovi px d v2 g s
  | .ldi px d g lit => Sys2Proof.Machine.execLdi px d g lit s
  | .lxor px d a k g => Sys2Proof.Machine.execLxor px d a k g s
  | .lget px d a b g => Sys2Proof.Machine.execLget px d a b g s
  | .lrot px d a k g => Sys2Proof.Machine.execLrot px d a k g s
  | .lrots px d a w k g => Sys2Proof.Machine.execLrots px d a w k g s
  | .consNone px p q g => Sys2Proof.Machine.execConsNone px p q g s
  | .consEvery px p q g => Sys2Proof.Machine.execConsEvery px p q g s
  | .consSame px p a g => Sys2Proof.Machine.execConsSame px p a g s
  | .consMask px d q g => Sys2Proof.Machine.execConsMask px d q g s
  | .consPeers px d a g => Sys2Proof.Machine.execConsPeers px d a g s
  | .consCount px d q g => Sys2Proof.Machine.execConsCount px d q g s
  | .consFirst px d q g => Sys2Proof.Machine.execConsFirst px d q g s
  | .rdsys px d n g => Sys2Proof.Machine.execRdsys px d n g s
  | .wrsys px a n g => Sys2Proof.Machine.execWrsys px a n g s
  | .ld px d a z h g => Sys2Proof.Machine.execLd px d a z h g s
  | .lda px d a z v4 g => Sys2Proof.Machine.execLda px d a z v4 g s
  | .st px z h a b g => Sys2Proof.Machine.execSt px z h a b g s
  | .stl px z v2 a b g => Sys2Proof.Machine.execStl px z v2 a b g s
  | .ldk px d a h g => Sys2Proof.Machine.execLdk px d a h g s
  | .rcn px d a m v4 g => Sys2Proof.Machine.execRcn px d a m v4 g s
  | .rcnx px d a m v4 g => Sys2Proof.Machine.execRcnx px d a m v4 g s
  | .cctlInv px a g => Sys2Proof.Machine.execCctlInv px a g s
  | .cctlInvall px g => Sys2Proof.Machine.execCctlInvall px g s
  | .cctlDemote px a g => Sys2Proof.Machine.execCctlDemote px a g s
  | .cctlEvict px a g => Sys2Proof.Machine.execCctlEvict px a g s
  | .pref px a h g => Sys2Proof.Machine.execPref px a h g s
  | .fence px o v2 g => Sys2Proof.Machine.execFence px o v2 g s
  | .atom px d a o v4 g => Sys2Proof.Machine.execAtom px d a o v4 g s
  | .atomr px d a o v4 g => Sys2Proof.Machine.execAtomr px d a o v4 g s
  | .red px d a o v4 g => Sys2Proof.Machine.execRed px d a o v4 g s
  | .atom64 px d a o v4 g => Sys2Proof.Machine.execAtom64 px d a o v4 g s
  | .dqpush px a b g => Sys2Proof.Machine.execDqpush px a b g s
  | .dqpop px d a g => Sys2Proof.Machine.execDqpop px d a g s
  | .dqsteal px d a g => Sys2Proof.Machine.execDqsteal px d a g s
  | .binit px a b g => Sys2Proof.Machine.execBinit px a b g s
  | .arv px a r v3 g => Sys2Proof.Machine.execArv px a r v3 g s
  | .bexp px a b g => Sys2Proof.Machine.execBexp px a b g s
  | .waitp px p a b g => Sys2Proof.Machine.execWaitp px p a b g s
  | .tryw px p a b g => Sys2Proof.Machine.execTryw px p a b g s
  | .wait px l v2 c t g => Sys2Proof.Machine.execWait px l v2 c t g s
  | .copy px a b g => Sys2Proof.Machine.execCopy px a b g s
  | .put px a b g => Sys2Proof.Machine.execPut px a b g s
  | .publ px a g => Sys2Proof.Machine.execPubl px a g s
  | .coll px d a g => Sys2Proof.Machine.execColl px d a g s
  | .mload px a g => Sys2Proof.Machine.execMload px a g s
  | .amodeStorage px a g => Sys2Proof.Machine.execAmodeStorage px a g s
  | .amodeCompute px a g => Sys2Proof.Machine.execAmodeCompute px a g s
  | .mmv px a g => Sys2Proof.Machine.execMmv px a g s
  | .mmg px a g => Sys2Proof.Machine.execMmg px a g s
  | .acc px a g => Sys2Proof.Machine.execAcc px a g s
  | .bra v0 g => Sys2Proof.Machine.execBra v0 g s
  | .brx a g => Sys2Proof.Machine.execBrx a g s
  | .call v0 g => Sys2Proof.Machine.execCall v0 g s
  | .ret g => Sys2Proof.Machine.execRet g s
  | .exit g => Sys2Proof.Machine.execExit g s
  | .win px v1 g => Sys2Proof.Machine.execWin px v1 g s
  | .winAbs px v1 g => Sys2Proof.Machine.execWinAbs px v1 g s
  | .leaseSpill px d a g => Sys2Proof.Machine.execLeaseSpill px d a g s
  | .leaseFill px d a g => Sys2Proof.Machine.execLeaseFill px d a g s
  | .leaseDrop px d a g => Sys2Proof.Machine.execLeaseDrop px d a g s
  | .sysNop px g => Sys2Proof.Machine.execSysNop px g s
  | .sysTrap px a g => Sys2Proof.Machine.execSysTrap px a g s
  | .sysTret px g => Sys2Proof.Machine.execSysTret px g s
  | .sysBkpt px g => Sys2Proof.Machine.execSysBkpt px g s
  | .sysYield px g => Sys2Proof.Machine.execSysYield px g s
  | .sysConv px g => Sys2Proof.Machine.execSysConv px g s
  | .sysElect px p g => Sys2Proof.Machine.execSysElect px p g s
  | .sysPost px a g => Sys2Proof.Machine.execSysPost px a g s
  | .sysTlbinv px v1 a g => Sys2Proof.Machine.execSysTlbinv px v1 a g s
  | .sysRdtime px d g => Sys2Proof.Machine.execSysRdtime px d g s
  | .sysSleep px a g => Sys2Proof.Machine.execSysSleep px a g s
  | .sysCabort px a g => Sys2Proof.Machine.execSysCabort px a g s
  | .sysMstat px d a g => Sys2Proof.Machine.execSysMstat px d a g s
  | .extIabs px d a g => Sys2Proof.Machine.execExtIabs px d a g s
  | .extIneg px d a g => Sys2Proof.Machine.execExtIneg px d a g s
  | .extNot px d a g => Sys2Proof.Machine.execExtNot px d a g s
  | .extSext8 px d a g => Sys2Proof.Machine.execExtSext8 px d a g s
  | .extSext16 px d a g => Sys2Proof.Machine.execExtSext16 px d a g s
  | .extZext8 px d a g => Sys2Proof.Machine.execExtZext8 px d a g s
  | .extZext16 px d a g => Sys2Proof.Machine.execExtZext16 px d a g s
  | .extFfs px d a g => Sys2Proof.Machine.execExtFfs px d a g s
  | .deferredTrapDelivery crew => Sys2Proof.Machine.execDeferredTrapDelivery crew s
  | .pathPromotion crew lane => Sys2Proof.Machine.execPathPromotion crew lane s
  | .activeSetResidencyExpiry core entry => Sys2Proof.Machine.execActiveSetResidencyExpiry core entry s
  | .activeSetFill core entry => Sys2Proof.Machine.execActiveSetFill core entry s
  | .loadDataReturn req => Sys2Proof.Machine.execLoadDataReturn req s
  | .symbolResolve crew sym => Sys2Proof.Machine.execSymbolResolve crew sym s
  | .strikeClearance req => Sys2Proof.Machine.execStrikeClearance req s
  | .storePerformed req => Sys2Proof.Machine.execStorePerformed req s
  | .atomicStep req lane => Sys2Proof.Machine.execAtomicStep req lane s
  | .reconcileStep req lane => Sys2Proof.Machine.execReconcileStep req lane s
  | .dequeStep hub => Sys2Proof.Machine.execDequeStep hub s
  | .barrierUpdate upd => Sys2Proof.Machine.execBarrierUpdate upd s
  | .waiterResume crew lane => Sys2Proof.Machine.execWaiterResume crew lane s
  | .trywDeadline crew lane => Sys2Proof.Machine.execTrywDeadline crew lane s
  | .sleepExpiry crew lane => Sys2Proof.Machine.execSleepExpiry crew lane s
  | .idleClockGate core => Sys2Proof.Machine.execIdleClockGate core s
  | .idlePowerGate core => Sys2Proof.Machine.execIdlePowerGate core s
  | .coreWake core => Sys2Proof.Machine.execCoreWake core s
  | .deadlinePreWake core => Sys2Proof.Machine.execDeadlinePreWake core s
  | .longWaitThreshold core => Sys2Proof.Machine.execLongWaitThreshold core s
  | .hangSuspectThreshold core => Sys2Proof.Machine.execHangSuspectThreshold core s
  | .copyStart copy => Sys2Proof.Machine.execCopyStart copy s
  | .copyPieceLand copy piece => Sys2Proof.Machine.execCopyPieceLand copy piece s
  | .copyRetire copy => Sys2Proof.Machine.execCopyRetire copy s
  | .putPiecePerformed copy piece => Sys2Proof.Machine.execPutPiecePerformed copy piece s
  | .collectiveComplete sett slot => Sys2Proof.Machine.execCollectiveComplete sett slot s
  | .collPacketReceive sett group attempt seq rank data => Sys2Proof.Machine.execCollPacketReceive sett group attempt seq rank data s
  | .abortTokenReceive sett group attempt => Sys2Proof.Machine.execAbortTokenReceive sett group attempt s
  | .postBufferDrain core => Sys2Proof.Machine.execPostBufferDrain core s
  | .multicastEnqueue core op => Sys2Proof.Machine.execMulticastEnqueue core op s
  | .seqBlockRead core op => Sys2Proof.Machine.execSeqBlockRead core op s
  | .seqStart core => Sys2Proof.Machine.execSeqStart core s
  | .amodeSwitch core op => Sys2Proof.Machine.execAmodeSwitch core op s
  | .amodeStorageEntry block slot => Sys2Proof.Machine.execAmodeStorageEntry block slot s
  | .columnSumDone core op => Sys2Proof.Machine.execColumnSumDone core op s
  | .mloadSlotDone core op => Sys2Proof.Machine.execMloadSlotDone core op s
  | .mmvFetchDone core op => Sys2Proof.Machine.execMmvFetchDone core op s
  | .mmvHighPlanesDone core op => Sys2Proof.Machine.execMmvHighPlanesDone core op s
  | .mmvLowPlanesDone core op => Sys2Proof.Machine.execMmvLowPlanesDone core op s
  | .mmvSumDone core op => Sys2Proof.Machine.execMmvSumDone core op s
  | .rowCommit core op => Sys2Proof.Machine.execRowCommit core op s
  | .accRowDone core op => Sys2Proof.Machine.execAccRowDone core op s
  | .seqOpRetire core op => Sys2Proof.Machine.execSeqOpRetire core op s
  | .seqStopRequest core op => Sys2Proof.Machine.execSeqStopRequest core op s
  | .leasePlaced crew lease => Sys2Proof.Machine.execLeasePlaced crew lease s
  | .leaseFillData crew lease => Sys2Proof.Machine.execLeaseFillData crew lease s
  | .leaseRevoke crew lease => Sys2Proof.Machine.execLeaseRevoke crew lease s
  | .translationWalkDone walk => Sys2Proof.Machine.execTranslationWalkDone walk s
  | .faultServiceCardPost sett => Sys2Proof.Machine.execFaultServiceCardPost sett s
  | .faultResStore sett entry value => Sys2Proof.Machine.execFaultResStore sett entry value s
  | .faultRetryWalkDone sett entry => Sys2Proof.Machine.execFaultRetryWalkDone sett entry s
  | .tlbinvApply inv sett => Sys2Proof.Machine.execTlbinvApply inv sett s
  | .tlbinvAck inv sett => Sys2Proof.Machine.execTlbinvAck inv sett s
  | .gets sett sector core => Sys2Proof.Machine.execGets sett sector core s
  | .evict sett sector core => Sys2Proof.Machine.execEvict sett sector core s
  | .evack core sector => Sys2Proof.Machine.execEvack core sector s
  | .data core sector => Sys2Proof.Machine.execData core sector s
  | .wr sett req => Sys2Proof.Machine.execWr sett req s
  | .inv node sector collector => Sys2Proof.Machine.execInv node sector collector s
  | .invack sett collector => Sys2Proof.Machine.execInvack sett collector s
  | .own sett sector node => Sys2Proof.Machine.execOwn sett sector node s
  | .fwdGets node sector core => Sys2Proof.Machine.execFwdGets node sector core s
  | .fwdWr node req => Sys2Proof.Machine.execFwdWr node req s
  | .fwdOwn node sector asker => Sys2Proof.Machine.execFwdOwn node sector asker s
  | .wb sett sector node data => Sys2Proof.Machine.execWb sett sector node data s
  | .wback node sector => Sys2Proof.Machine.execWback node sector s
  | .nack sett req => Sys2Proof.Machine.execNack sett req s
  | .exportRevoke sett entry => Sys2Proof.Machine.execExportRevoke sett entry s
  | .replicaWrite sett area req => Sys2Proof.Machine.execReplicaWrite sett area req s
  | .replicaUpdate sett area number => Sys2Proof.Machine.execReplicaUpdate sett area number s
  | .hostAtomicCasResponse req value => Sys2Proof.Machine.execHostAtomicCasResponse req value s
  | .hostSnoop sett line => Sys2Proof.Machine.execHostSnoop sett line s
  | .hostMemRequest sett kind address data => Sys2Proof.Machine.execHostMemRequest sett kind address data s
  | .qdbDoorbell sett queue value => Sys2Proof.Machine.execQdbDoorbell sett queue value s
  | .retrycntClear sett value => Sys2Proof.Machine.execRetrycntClear sett value s
  | .registerWrite sett offset value => Sys2Proof.Machine.execRegisterWrite sett offset value s
  | .setbase sett => Sys2Proof.Machine.execSetbase sett s
  | .refresh sett => Sys2Proof.Machine.execRefresh sett s
  | .qstatus sett => Sys2Proof.Machine.execQstatus sett s
  | .qresume sett => Sys2Proof.Machine.execQresume sett s
  | .import sett => Sys2Proof.Machine.execImport sett s
  | .unimport sett => Sys2Proof.Machine.execUnimport sett s
  | .unimportComplete sett window => Sys2Proof.Machine.execUnimportComplete sett window s
  | .hibernate sett => Sys2Proof.Machine.execHibernate sett s
  | .quiescePreemptDone => Sys2Proof.Machine.execQuiescePreemptDone s
  | .quiesceCollectiveTimeout => Sys2Proof.Machine.execQuiesceCollectiveTimeout s
  | .quiesceOutwardDone => Sys2Proof.Machine.execQuiesceOutwardDone s
  | .quiesceRecallDone => Sys2Proof.Machine.execQuiesceRecallDone s
  | .quiesceFreeze => Sys2Proof.Machine.execQuiesceFreeze s
  | .hibernateImageDone => Sys2Proof.Machine.execHibernateImageDone s
  | .wake sett => Sys2Proof.Machine.execWake sett s
  | .dependencePoll sett => Sys2Proof.Machine.execDependencePoll sett s
  | .cardHeadCheck sett queue => Sys2Proof.Machine.execCardHeadCheck sett queue s
  | .cardStart sett queue => Sys2Proof.Machine.execCardStart sett queue s
  | .gangPlacement sett => Sys2Proof.Machine.execGangPlacement sett s
  | .priorityAgeing sett => Sys2Proof.Machine.execPriorityAgeing sett s
  | .swapOutDecision sett => Sys2Proof.Machine.execSwapOutDecision sett s
  | .clusterReallocation sett => Sys2Proof.Machine.execClusterReallocation sett s
  | .crewEnd crew => Sys2Proof.Machine.execCrewEnd crew s
  | .swapOutStop sett record => Sys2Proof.Machine.execSwapOutStop sett record s
  | .swapOutDrainDone sett record => Sys2Proof.Machine.execSwapOutDrainDone sett record s
  | .swapOutCloseDone sett record => Sys2Proof.Machine.execSwapOutCloseDone sett record s
  | .swapOutImageWritten sett record => Sys2Proof.Machine.execSwapOutImageWritten sett record s
  | .swapOutFree sett record => Sys2Proof.Machine.execSwapOutFree sett record s
  | .reedReport core => Sys2Proof.Machine.execReedReport core s
  | .rollbackRestoreDone core => Sys2Proof.Machine.execRollbackRestoreDone core s
  | .recoverySpanEnd core => Sys2Proof.Machine.execRecoverySpanEnd core s
  | .relaunchCatchupEnd sett record => Sys2Proof.Machine.execRelaunchCatchupEnd sett record s
  | .patrolScrub sett => Sys2Proof.Machine.execPatrolScrub sett s
  | .converterCalibration core array => Sys2Proof.Machine.execConverterCalibration core array s
  | .calibrationPause core array => Sys2Proof.Machine.execCalibrationPause core array s
  | .flitReceive link sequence intact payload => Sys2Proof.Machine.execFlitReceive link sequence intact payload s
  | .nakReceive link sequence => Sys2Proof.Machine.execNakReceive link sequence s
  | .linkRetrainDone link success => Sys2Proof.Machine.execLinkRetrainDone link success s
  | .linkBringup link peer success => Sys2Proof.Machine.execLinkBringup link peer success s
  | .linkKeyUpdate link => Sys2Proof.Machine.execLinkKeyUpdate link s
  | .powerOn => Sys2Proof.Machine.execPowerOn s
  | .settReset sett => Sys2Proof.Machine.execSettReset sett s
  | .getVersion session => Sys2Proof.Machine.execGetVersion session s
  | .getCapabilities session => Sys2Proof.Machine.execGetCapabilities session s
  | .negotiateAlgorithms session => Sys2Proof.Machine.execNegotiateAlgorithms session s
  | .getDigests session => Sys2Proof.Machine.execGetDigests session s
  | .getCertificate session die => Sys2Proof.Machine.execGetCertificate session die s
  | .challenge session => Sys2Proof.Machine.execChallenge session s
  | .getMeasurements session => Sys2Proof.Machine.execGetMeasurements session s
  | .keyExchange session => Sys2Proof.Machine.execKeyExchange session s
  | .finish session => Sys2Proof.Machine.execFinish session s
  | .keyUpdate session => Sys2Proof.Machine.execKeyUpdate session s
  | .endSession session => Sys2Proof.Machine.execEndSession session s
  | .keyLoad sett slot key => Sys2Proof.Machine.execKeyLoad sett slot key s
  | .keyClear sett slot => Sys2Proof.Machine.execKeyClear sett slot s
  | .filterEntryWrite sett entry base limit => Sys2Proof.Machine.execFilterEntryWrite sett entry base limit s
  | .dvsecRead sett offset => Sys2Proof.Machine.execDvsecRead sett offset s
  | .railOvercurrent die rail => Sys2Proof.Machine.execRailOvercurrent die rail s
  | .clockRecover die rail => Sys2Proof.Machine.execClockRecover die rail s
  | .thermalTrip => Sys2Proof.Machine.execThermalTrip s
  | .supplyUndervoltage => Sys2Proof.Machine.execSupplyUndervoltage s
  | .illegalInstruction info => Sys2Proof.Machine.execIllegalInstruction info s
  | .unknownOp sett => Sys2Proof.Machine.execUnknownOp sett s
  | .swapInRestoreDone block => Sys2Proof.Machine.execSwapInRestoreDone block s
  | .hostLinkDown => Sys2Proof.Machine.execHostLinkDown s

end Sys2Proof.Machine
end

