-- ==== Sys2Proof/Machine/Happen.lean ====
section
/-! DEFINITION. An event of the agenda runs by the meaning of the opcode-table row of the same name. -/

namespace Sys2Proof.Machine

/-- Run an event. -/
def State.happen (e : Event) (s : State) : Out :=
  match e with
  | .deferredTrapDelivery crew => execDeferredTrapDelivery crew s
  | .pathPromotion crew lane => execPathPromotion crew lane s
  | .activeSetResidencyExpiry core entry => execActiveSetResidencyExpiry core entry s
  | .activeSetFill core entry => execActiveSetFill core entry s
  | .loadDataReturn req => execLoadDataReturn req s
  | .symbolResolve crew sym => execSymbolResolve crew sym s
  | .strikeClearance req => execStrikeClearance req s
  | .storePerformed req => execStorePerformed req s
  | .atomicStep req lane => execAtomicStep req lane s
  | .reconcileStep req lane => execReconcileStep req lane s
  | .dequeStep hub => execDequeStep hub s
  | .barrierUpdate upd => execBarrierUpdate upd s
  | .waiterResume crew lane => execWaiterResume crew lane s
  | .trywDeadline crew lane => execTrywDeadline crew lane s
  | .sleepExpiry crew lane => execSleepExpiry crew lane s
  | .idleClockGate core => execIdleClockGate core s
  | .idlePowerGate core => execIdlePowerGate core s
  | .coreWake core => execCoreWake core s
  | .deadlinePreWake core => execDeadlinePreWake core s
  | .longWaitThreshold core => execLongWaitThreshold core s
  | .hangSuspectThreshold core => execHangSuspectThreshold core s
  | .copyStart copy => execCopyStart copy s
  | .copyPieceLand copy piece => execCopyPieceLand copy piece s
  | .copyRetire copy => execCopyRetire copy s
  | .putPiecePerformed copy piece => execPutPiecePerformed copy piece s
  | .collectiveComplete sett slot => execCollectiveComplete sett slot s
  | .collPacketReceive sett group attempt seq rank data => execCollPacketReceive sett group attempt seq rank data s
  | .abortTokenReceive sett group attempt => execAbortTokenReceive sett group attempt s
  | .postBufferDrain core => execPostBufferDrain core s
  | .multicastEnqueue core op => execMulticastEnqueue core op s
  | .seqBlockRead core op => execSeqBlockRead core op s
  | .seqStart core => execSeqStart core s
  | .amodeSwitch core op => execAmodeSwitch core op s
  | .amodeStorageEntry block slot => execAmodeStorageEntry block slot s
  | .columnSumDone core op => execColumnSumDone core op s
  | .mloadSlotDone core op => execMloadSlotDone core op s
  | .mmvFetchDone core op => execMmvFetchDone core op s
  | .mmvHighPlanesDone core op => execMmvHighPlanesDone core op s
  | .mmvLowPlanesDone core op => execMmvLowPlanesDone core op s
  | .mmvSumDone core op => execMmvSumDone core op s
  | .rowCommit core op => execRowCommit core op s
  | .accRowDone core op => execAccRowDone core op s
  | .seqOpRetire core op => execSeqOpRetire core op s
  | .seqStopRequest core op => execSeqStopRequest core op s
  | .leasePlaced crew lease => execLeasePlaced crew lease s
  | .leaseFillData crew lease => execLeaseFillData crew lease s
  | .leaseRevoke crew lease => execLeaseRevoke crew lease s
  | .translationWalkDone walk => execTranslationWalkDone walk s
  | .faultServiceCardPost sett => execFaultServiceCardPost sett s
  | .faultResStore sett entry value => execFaultResStore sett entry value s
  | .faultRetryWalkDone sett entry => execFaultRetryWalkDone sett entry s
  | .tlbinvApply inv sett => execTlbinvApply inv sett s
  | .tlbinvAck inv sett => execTlbinvAck inv sett s
  | .gets sett sector core => execGets sett sector core s
  | .evict sett sector core => execEvict sett sector core s
  | .evack core sector => execEvack core sector s
  | .data core sector => execData core sector s
  | .wr sett req => execWr sett req s
  | .inv node sector collector => execInv node sector collector s
  | .invack sett collector => execInvack sett collector s
  | .own sett sector node => execOwn sett sector node s
  | .fwdGets node sector core => execFwdGets node sector core s
  | .fwdWr node req => execFwdWr node req s
  | .fwdOwn node sector asker => execFwdOwn node sector asker s
  | .wb sett sector node data => execWb sett sector node data s
  | .wback node sector => execWback node sector s
  | .nack sett req => execNack sett req s
  | .exportRevoke sett entry => execExportRevoke sett entry s
  | .replicaWrite sett area req => execReplicaWrite sett area req s
  | .replicaUpdate sett area number => execReplicaUpdate sett area number s
  | .hostAtomicCasResponse req value => execHostAtomicCasResponse req value s
  | .hostSnoop sett line => execHostSnoop sett line s
  | .hostMemRequest sett kind address data => execHostMemRequest sett kind address data s
  | .qdbDoorbell sett queue value => execQdbDoorbell sett queue value s
  | .retrycntClear sett value => execRetrycntClear sett value s
  | .registerWrite sett offset value => execRegisterWrite sett offset value s
  | .setbase sett => execSetbase sett s
  | .refresh sett => execRefresh sett s
  | .qstatus sett => execQstatus sett s
  | .qresume sett => execQresume sett s
  | .import sett => execImport sett s
  | .unimport sett => execUnimport sett s
  | .unimportComplete sett window => execUnimportComplete sett window s
  | .hibernate sett => execHibernate sett s
  | .quiescePreemptDone => execQuiescePreemptDone s
  | .quiesceCollectiveTimeout => execQuiesceCollectiveTimeout s
  | .quiesceOutwardDone => execQuiesceOutwardDone s
  | .quiesceRecallDone => execQuiesceRecallDone s
  | .quiesceFreeze => execQuiesceFreeze s
  | .hibernateImageDone => execHibernateImageDone s
  | .wake sett => execWake sett s
  | .dependencePoll sett => execDependencePoll sett s
  | .cardHeadCheck sett queue => execCardHeadCheck sett queue s
  | .cardStart sett queue => execCardStart sett queue s
  | .gangPlacement sett => execGangPlacement sett s
  | .priorityAgeing sett => execPriorityAgeing sett s
  | .swapOutDecision sett => execSwapOutDecision sett s
  | .clusterReallocation sett => execClusterReallocation sett s
  | .crewEnd crew => execCrewEnd crew s
  | .swapOutStop sett record => execSwapOutStop sett record s
  | .swapOutDrainDone sett record => execSwapOutDrainDone sett record s
  | .swapOutCloseDone sett record => execSwapOutCloseDone sett record s
  | .swapOutImageWritten sett record => execSwapOutImageWritten sett record s
  | .swapOutFree sett record => execSwapOutFree sett record s
  | .reedReport core => execReedReport core s
  | .rollbackRestoreDone core => execRollbackRestoreDone core s
  | .recoverySpanEnd core => execRecoverySpanEnd core s
  | .relaunchCatchupEnd sett record => execRelaunchCatchupEnd sett record s
  | .patrolScrub sett => execPatrolScrub sett s
  | .converterCalibration core array => execConverterCalibration core array s
  | .calibrationPause core array => execCalibrationPause core array s
  | .flitReceive link sequence intact payload => execFlitReceive link sequence intact payload s
  | .nakReceive link sequence => execNakReceive link sequence s
  | .linkRetrainDone link success => execLinkRetrainDone link success s
  | .linkBringup link peer success => execLinkBringup link peer success s
  | .linkKeyUpdate link => execLinkKeyUpdate link s
  | .powerOn => execPowerOn s
  | .settReset sett => execSettReset sett s
  | .getVersion session => execGetVersion session s
  | .getCapabilities session => execGetCapabilities session s
  | .negotiateAlgorithms session => execNegotiateAlgorithms session s
  | .getDigests session => execGetDigests session s
  | .getCertificate session die => execGetCertificate session die s
  | .challenge session => execChallenge session s
  | .getMeasurements session => execGetMeasurements session s
  | .keyExchange session => execKeyExchange session s
  | .finish session => execFinish session s
  | .keyUpdate session => execKeyUpdate session s
  | .endSession session => execEndSession session s
  | .keyLoad sett slot key => execKeyLoad sett slot key s
  | .keyClear sett slot => execKeyClear sett slot s
  | .filterEntryWrite sett entry base limit => execFilterEntryWrite sett entry base limit s
  | .dvsecRead sett offset => execDvsecRead sett offset s
  | .railOvercurrent die rail => execRailOvercurrent die rail s
  | .clockRecover die rail => execClockRecover die rail s
  | .thermalTrip => execThermalTrip s
  | .supplyUndervoltage => execSupplyUndervoltage s
  | .illegalInstruction info => execIllegalInstruction info s
  | .unknownOp sett => execUnknownOp sett s
  | .swapInRestoreDone block => execSwapInRestoreDone block s
  | .hostLinkDown => execHostLinkDown s

end Sys2Proof.Machine
end

