-- ==== Sys2Proof/Machine/Step.lean ====
section
/-! DEFINITION. One step of the module: an issue of the turn, or an event that is due, or the choice of the cycle's issues,
or the end of the cycle (log 4). -/

namespace Sys2Proof.Machine

/-- One step. An issue fetches and decodes the instruction at its path's program counter and executes it. -/
def step (s : State) : Host.Outcome State Fault Refusal :=
  if !s.runs then .fault .unpowered
  else
    match s.turn with
    | u :: rest =>
      let s := s.take u rest
      if !s.stands u then .next s
      else
        match s.fetch u.crew u.pc.toNat with
        | .instr i => exec i s
        | f => .next (s.fetchStop u f)
    | [] =>
      match s.dueEvent with
      | some (e, s) => s.happen e
      | none => .next (if s.planned then s.tick else s.beginTurn)

/-- The state with an instruction placed where the next step fetches it (log 21). -/
def State.withFetchWord (s : State) (nbits w : Nat) : State := s.placed (w % 2 ^ nbits)

end Sys2Proof.Machine
end

