-- ==== Sys2Proof/Safety.lean ====
section
/-! DEFINITION. What a safe run is, and the terms in which the claims speak of an instruction that executes: when it runs, what
it writes, and what it leaves alone. -/

namespace Sys2Proof

open Machine

/-- The memories of the package and of the host are in canonical form. -/
def Machine.State.memOk (s : State) : Prop := Memory.wf s.hbm = true ∧ Memory.wf s.hostMem = true

/-- `k` steps from a state end in a next state. -/
def runsFor (k : Nat) (s : State) : Prop := ∃ t, core.run k s = .next t

/-- A safe run: however long, it ends in no fault and no refusal. -/
def safe (s : State) : Prop := ∀ k, runsFor k s

/-! ## An issued instruction -/

/-- `i` is the instruction of the issue `u`; neither its encoding nor the crew's mode makes it illegal (R60), nothing holds it back
(R17, R92, R94, R153), and its operands raise no trap (R48). -/
abbrev Runs (i : Instr) (u : Issue) (s : State) : Prop :=
  s.cur = some u ∧ s.illegalIn u.crew i = none ∧ (s.crew u.crew).held_ i u.lanes = false ∧ (s.crew u.crew).operandTrap i u = none

/-- As `Runs`, for an instruction of the memory system: its own conditions hold it back neither, and its own traps are not
raised. -/
abbrev RunsMem (i : Instr) (trap : Issue → Option (Trap × Nat)) (u : Issue) (s : State) : Prop :=
  Runs i u s ∧ s.memHeld u.crew i u.lanes = false ∧ trap u = none

/-- Nothing changes but the issuing crew, and the issue notes of its core. -/
structure OnlyCrew (u : Issue) (s t : State) : Prop where
  rest : t = { s with crews := t.crews, cores := t.cores }
  others : ∀ k, k ≠ u.crew → t.crew k = s.crew k
  cores : ∀ g, t.core g = { s.core g with
    slotBusy := (t.core g).slotBusy, idleFrom := (t.core g).idleFrom, reported := (t.core g).reported }

/-- The path's threads stand at the next instruction; no other thread moves (R21). -/
def Advanced (i : Instr) (u : Issue) (c d : Crew) : Prop :=
  ∀ l, (l ∈ lanesOf u.lanes → (d.thread l).pc = nextPc u i ∧ (d.thread l).st = (c.thread l).st) ∧
    (l ∉ lanesOf u.lanes → d.thread l = c.thread l)

/-- Every register keeps its value but the destination registers of `i` in the lanes that `i` writes. -/
def RegsKept (i : Instr) (u : Issue) (c d : Crew) : Prop :=
  ∀ r l, l < 32 → (r ∉ (info i).writeRegs.map c.win ∨ l ∉ c.active i u.lanes ++ c.zeroed i u.lanes) →
    (d.slot r l).val = (c.slot r l).val

/-- Predicates, status, trap state, window, counters and all else of a crew are unchanged, but for what an issue notes:
registers, threads, pending forms, the times of results, and the translations that a parked instruction was brought. -/
def CrewKept (c d : Crew) : Prop :=
  d = { c with regs := d.regs, threads := d.threads, forms := d.forms, busy := d.busy, rcache := d.rcache, lastIssue := d.lastIssue,
               brought := d.brought }

/-- As `CrewKept`, for an instruction that writes predicates. -/
def CrewKeptPreds (c d : Crew) : Prop :=
  d = { c with regs := d.regs, threads := d.threads, preds := d.preds, busy := d.busy, rcache := d.rcache, lastIssue := d.lastIssue,
               brought := d.brought }

/-- Nothing but the path's threads has moved, and an issue has been noted. -/
structure Passed (i : Instr) (u : Issue) (s t : State) : Prop where
  only : OnlyCrew u s t
  moved : Advanced i u (s.crew u.crew) (t.crew u.crew)
  kept : t.crew u.crew = { s.crew u.crew with
    threads := (t.crew u.crew).threads, busy := (t.crew u.crew).busy, rcache := (t.crew u.crew).rcache,
    lastIssue := (t.crew u.crew).lastIssue, brought := (t.crew u.crew).brought }

/-- Encoded instructions that check nothing of their own before their operands: not BRX and RET, which check the target's
alignment. -/
def plain (i : Instr) : Bool :=
  match i with
  | .brx .. | .ret .. => false
  | _ => (info i).enc

/-- The values that the operands of element `e` have in lane `l`. -/
def operandsAt (i : Instr) (c : Crew) (e : Nat × Nat) (l : Nat) : Nat → Nat :=
  fun k => (c.operandValues (info i) e l)[k]?.getD 0

/-- `i` writes registers: with no pending source, each active lane of each element gets the value of `fn` (of the lane, the
element's index and the operands), a masked lane gets 0 where the mask zeroes, and nothing else changes (R38, R39, R45,
R102). -/
def Gives (i : Instr) (u : Issue) (s : State) (fn : Nat → Nat → (Nat → Nat) → Nat) : Prop :=
  Runs i u s → (s.crew u.crew).composes i u.lanes = none →
    ∃ t, exec i s = .next t ∧ OnlyCrew u s t ∧
      let c := s.crew u.crew
      let d := t.crew u.crew
      let o := (info i).dst.getD (0, 1)
      Advanced i u c d ∧ RegsKept i u c d ∧ CrewKept c d ∧
      (∀ e ∈ (info i).elems.zipIdx, ∀ k, k < o.2 →
        (∀ l ∈ c.active i u.lanes, d.slot (c.win (opField o e.1 + k)) l =
          { val := resWord (fn l e.2 (operandsAt i c e.1 l)) k, cnt := BitVec.ofNat 2 (info i).cnt, rel := false }) ∧
        (∀ l ∈ c.zeroed i u.lanes, d.slot (c.win (opField o e.1 + k)) l =
          { val := 0, cnt := BitVec.ofNat 2 (info i).cnt, rel := false }))

/-- `i` writes a predicate pair: the value of `fn` in each active lane and its complement, both clear where a mask zeroes, and
nothing else changes (R34, R127). -/
def GivesPair (i : Instr) (u : Issue) (s : State) (fn : Nat → (Nat → Nat) → Bool) : Prop :=
  Runs i u s →
    ∃ t, exec i s = .next t ∧ OnlyCrew u s t ∧
      let c := s.crew u.crew
      let d := t.crew u.crew
      let P := (info i).pdst.getD 0
      Advanced i u c d ∧ (∀ r l, l < 32 → (d.slot r l).val = (c.slot r l).val) ∧ CrewKeptPreds c d ∧
      (∀ l ∈ c.active i u.lanes,
        d.pred l (2 * P) = fn l (operandsAt i c (0, 0) l) ∧ d.pred l (2 * P + 1) = !fn l (operandsAt i c (0, 0) l)) ∧
      (∀ l ∈ c.zeroed i u.lanes, d.pred l (2 * P) = false ∧ d.pred l (2 * P + 1) = false) ∧
      (∀ l p, p < 12 → (p ≠ 2 * P ∧ p ≠ 2 * P + 1) ∨ l ∉ c.active i u.lanes ++ c.zeroed i u.lanes → d.pred l p = c.pred l p)

/-- Rounding mode of a prefix (R39). -/
def rndOf (px : Option Pfx) : Nat := match px with | some p => p.rnd.toNat | none => 0

/-- The path branches: its active lanes stand at their targets, its other lanes at the next instruction, and nothing else moves
(R175). -/
structure Branched (i : Instr) (u : Issue) (s t : State) (target : Nat → BitVec 64) : Prop where
  only : OnlyCrew u s t
  taken : ∀ l ∈ (s.crew u.crew).active i u.lanes, ((t.crew u.crew).thread l).pc = target l
  rest : ∀ l ∈ lanesOf u.lanes, l ∉ (s.crew u.crew).active i u.lanes → ((t.crew u.crew).thread l).pc = nextPc u i
  others : ∀ l, l ∉ lanesOf u.lanes → (t.crew u.crew).thread l = (s.crew u.crew).thread l
  regs : RegsKept i u (s.crew u.crew) (t.crew u.crew)
  crew : CrewKept (s.crew u.crew) (t.crew u.crew)

/-- Crew k has taken a trap (R346): the frame holds its threads as they stood, the trap registers say what happened, and all 32
threads stand at the handler; registers, predicates and memory are as before, but that the fault buffer no longer counts accesses of
its threads that waited there. -/
structure Trapped (k : Nat) (s t : State) (code : Nat) (pc : BitVec 64) (why : Nat) (lanes : Option LaneMask) : Prop where
  handler : (t.crew k).handler = true
  frame : (t.crew k).frame = (s.crew k).threads
  code : (t.crew k).trapCode = BitVec.ofNat 32 code
  info : (t.crew k).trapInfo = BitVec.ofNat 32 why
  pc : (t.crew k).trapPc = pc
  lanes : (t.crew k).trapLanes = lanes
  threads : ∀ l, l < 32 → ((t.crew k).thread l).pc = BitVec.ofNat 64 (s.record (crewSett k) (crewRec k)).handler ∧
    ((t.crew k).thread l).st = .ready
  values : ∀ r l, l < 32 → ((t.crew k).slot r l).val = ((s.crew k).slot r l).val
  preds : (t.crew k).preds = (s.crew k).preds ∧ (t.crew k).status = (s.crew k).status ∧ (t.crew k).wb = (s.crew k).wb
  others : ∀ j, j ≠ k → t.crew j = s.crew j
  mem : t.hostMem = s.hostMem ∧ ((s.crew k).threads.all (fun p => p.2.st != .parked) = true → t.hbm = s.hbm)

/-- The crew may take a trap: it is in no handler, and its region has one (R346). -/
abbrev MayTrap (k : Nat) (s : State) : Prop :=
  (s.crew k).handler = false ∧ (s.record (crewSett k) (crewRec k)).handler ≠ 0

/-- The path's threads have moved on, no register's value has changed but the destinations' (R38), nothing else of the issuing crew differs
from `c`, and no other crew has changed. -/
structure Stepped (i : Instr) (u : Issue) (s t : State) (c : Crew) : Prop where
  moved : Advanced i u (s.crew u.crew) (t.crew u.crew)
  values : RegsKept i u (s.crew u.crew) (t.crew u.crew)
  kept : CrewKept c (t.crew u.crew)
  others : ∀ k, k ≠ u.crew → t.crew k = s.crew k

/-- Beside the notes of the issue, every core is as `f` says. -/
def CoresAs (t : State) (f : Nat → Core) : Prop :=
  ∀ g, t.core g = { f g with slotBusy := (t.core g).slotBusy, idleFrom := (t.core g).idleFrom, reported := (t.core g).reported }

/-- Lane, address and target of each access of the lanes `ts`: one for each lane, or the two halves of one of 16 bytes (R148). -/
def accessesOf (halves : Bool) (ts : List (Nat × Nat × Target)) : List (Nat × Nat × Option Target) :=
  ts.flatMap (fun t => if halves then
      [(t.1, t.2.1, some t.2.2), (t.1, t.2.1 + 8, some { t.2.2 with place := t.2.2.place.shift 8 })]
    else [(t.1, t.2.1, some t.2.2)])

/-- `v` is the state in which the request `r` of an issued memory instruction has entered: it is counted in `ctr` and nowhere else, the
path's threads have moved on, a release waits for what the crew has on its way (R146), and beside the issuing crew's registers,
results, stamps, the bits `flags` of STATUS, the core's TLB order and post buffer, and the requests nothing has changed: no byte of memory,
no predicate or trap register (R29, R139). -/
structure Entered (i : Instr) (u : Issue) (s v : State) (id : Nat) (r : Req) (ctr : Option Counter) (flags : Word := 0) : Prop where
  req : v.req id = some r
  own : r.crew = u.crew ∧ r.pc = u.pc ∧ r.phase = 1 ∧ r.issued = s.cycle
  order : r.release = true → ∀ d ∈ s.releaseDeps u.crew, d ∈ r.deps
  counts : ∀ k, (v.crew u.crew).count k = (s.crew u.crew).count k + (if ctr = some k then 1 else 0)
  moved : Advanced i u (s.crew u.crew) (v.crew u.crew)
  values : RegsKept i u (s.crew u.crew) (v.crew u.crew)
  kept : let d := v.crew u.crew
    d = { s.crew u.crew with
      regs := d.regs, threads := d.threads, forms := d.forms, syms := d.syms, busy := d.busy, inFlight := d.inFlight, rcache := d.rcache,
      lastIssue := d.lastIssue, brought := d.brought, loads := d.loads, stores := d.stores, copies := d.copies, epoch := d.epoch,
      seq := d.seq, status := (s.crew u.crew).status ||| flags }
  others : ∀ k, k ≠ u.crew → v.crew k = s.crew k
  cores : CoresAs v (fun g => { s.core g with tlb := (v.core g).tlb, post := (v.core g).post })
  rest : v = { s with crews := v.crews, cores := v.cores, reqs := v.reqs, groups := v.groups, nextId := v.nextId }

/-- A request of `kind` for the targets `ts` enters, counted in `ctr`, and starts on its way. -/
def Enters (i : Instr) (u : Issue) (s : State) (kind : ReqKind) (ctr : Option Counter) (release halves : Bool)
    (ts : List (Nat × Nat × Target)) : Prop :=
  ∃ id v r, exec i s = .next (v.start id) ∧ Entered i u s v id r ctr ∧ r.kind = kind ∧ r.release = release ∧
    r.lanes.map (fun x => (x.lane, x.va, x.target)) = accessesOf halves ts

/-- As `Enters`, for an instruction that acquires at a scope (R146). -/
def EntersAcquire (i : Instr) (u : Issue) (s : State) (kind : ReqKind) (release halves : Bool) (ts : List (Nat × Nat × Target))
    (scope : Nat) : Prop :=
  ∃ id v r, exec i s = .next ((v.start id).beginAcquire u.crew id scope) ∧ Entered i u s v id r (some .loads) ∧ r.kind = kind ∧
    r.release = release ∧ r.acquire = true ∧ r.scope = scope ∧
    r.lanes.map (fun x => (x.lane, x.va, x.target)) = accessesOf halves ts

/-- As `Enters`, for an instruction that updates its words: what the core's L1 holds of them leaves before the request starts (R272). -/
def EntersUpdate (i : Instr) (u : Issue) (s : State) (kind : ReqKind) (ctr : Option Counter) (release : Bool)
    (ts : List (Nat × Nat × Target)) : Prop :=
  ∃ id v r, exec i s = .next ((v.dropReqWords r).start id) ∧ Entered i u s v id r ctr ∧ r.kind = kind ∧ r.release = release ∧
    r.lanes.map (fun x => (x.lane, x.va, x.target)) = accessesOf false ts

/-- As `EntersUpdate`, for an instruction that acquires at a scope (R146). -/
def EntersUpdateAcquire (i : Instr) (u : Issue) (s : State) (kind : ReqKind) (release : Bool) (ts : List (Nat × Nat × Target))
    (scope : Nat) : Prop :=
  ∃ id v r, exec i s = .next (((v.dropReqWords r).start id).beginAcquire u.crew id scope) ∧ Entered i u s v id r (some .loads) ∧
    r.kind = kind ∧ r.release = release ∧ r.acquire = true ∧ r.scope = scope ∧
    r.lanes.map (fun x => (x.lane, x.va, x.target)) = accessesOf false ts

/-- A store's request enters, counted as a store, its lanes with their data. Where nothing is queued and the data is known, whole words
go into the core's L1 (R254) and the request starts; otherwise it stands last in the egress queue, with the form of its data (R93). -/
def EntersStore (i : Instr) (u : Issue) (s : State) (kind : ReqKind) (release halves : Bool) (ts : List (Nat × Nat × Target))
    (queued : Bool) (form : Option Form) (data : Nat → Nat) : Prop :=
  ∃ id v r, exec i s = .next
      (if queued then ((v.dropKs id).modCrew u.crew (fun c => { c with egress := c.egress ++ [⟨id, form⟩] })).drainEgress u.crew
       else (v.storeL1 r).start id) ∧
    Entered i u s v id r (some .stores) ∧ r.kind = kind ∧ r.release = release ∧ r.queued = queued ∧
    r.lanes.map (fun x => (x.lane, x.va, x.target)) = accessesOf halves ts ∧
    r.lanes.map LaneReq.data = ts.flatMap (fun t => if halves then [data t.1 % 2 ^ 64, data t.1 / 2 ^ 64] else [data t.1])

/-- An instruction that reads memory and has no active lane: it completes at once and writes nothing but the zeros of a zeroing mask
(R38, R139). -/
def ReadsNothing (i : Instr) (u : Issue) (s : State) : Prop :=
  ∃ t, exec i s = .next t ∧ OnlyCrew u s t ∧ Advanced i u (s.crew u.crew) (t.crew u.crew) ∧
    RegsKept i u (s.crew u.crew) (t.crew u.crew) ∧ CrewKept (s.crew u.crew) (t.crew u.crew) ∧
    ∀ e ∈ (info i).elems, ∀ o, (info i).dst = some o → ∀ k, k < o.2 → ∀ l ∈ (s.crew u.crew).zeroed i u.lanes,
      (t.crew u.crew).slot ((s.crew u.crew).win (opField o e + k)) l =
        { val := 0, cnt := BitVec.ofNat 2 (info i).cnt, rel := false }

/-- Threads have moved on and the core's L1 may have changed: nothing else has, in any crew, core, memory or queue. -/
structure CacheOnly (i : Instr) (u : Issue) (s t : State) : Prop where
  stepped : Stepped i u s t (s.crew u.crew)
  cores : CoresAs t (fun g => { s.core g with l1 := if g = (s.crew u.crew).core then (t.core g).l1 else (s.core g).l1 })
  rest : t = { s with crews := t.crews, cores := t.cores }

/-- The active lanes whose address names a barrier object in a scratchpad, with the object's place (R161). -/
def objectsOf (i : Instr) (u : Issue) (s : State) : List (Nat × Nat × Target) :=
  ((s.crew u.crew).active i u.lanes).filterMap (fun l =>
    match s.objectAt u.crew ((s.crew u.crew).laneAddr i l) with
    | some (some (b, o)) => some (l, (s.crew u.crew).laneAddr i l, { place := .pad b o })
    | _ => none)

/-- `w` is `v` with one more request, which no counter counts. -/
def Joined (v w : State) (id : Nat) (r : Req) : Prop :=
  w.req id = some r ∧ (∀ j, j ≠ id → w.req j = v.req j) ∧ w = { v with reqs := w.reqs, nextId := w.nextId }

/-- A waiting or sleeping thread goes on at `next`; no other thread of its crew moves, nothing of it changes but predicates, and beside its
crew only the core's gate, its L1 and the agenda may. -/
structure Resumed (k l : Nat) (s t : State) (next : BitVec 64) : Prop where
  thread : (t.crew k).thread l = { (s.crew k).thread l with pc := next, st := .ready, wait := 0, due := s.cycle }
  others : ∀ j, j ≠ l → (t.crew k).thread j = (s.crew k).thread j
  kept : t.crew k = { s.crew k with threads := (t.crew k).threads, preds := (t.crew k).preds }
  crews : ∀ j, j ≠ k → t.crew j = s.crew j
  cores : ∀ g, t.core g = { s.core g with gate := (t.core g).gate, l1 := (t.core g).l1 }
  rest : t = { s with crews := t.crews, cores := t.cores, agenda := t.agenda }

/-- As `Resumed`, with the pair that the thread waited for: `v` and its complement, and no other predicate changed. -/
structure ResumedPair (k l : Nat) (s t : State) (w : WaitOn) (v : Bool) : Prop where
  resumed : Resumed k l s t w.next
  pair : (t.crew k).pred l (2 * w.pair) = v ∧ (t.crew k).pred l (2 * w.pair + 1) = !v
  preds : ∀ j p, p < 12 → j ≠ l ∨ (p ≠ 2 * w.pair ∧ p ≠ 2 * w.pair + 1) → (t.crew k).pred j p = (s.crew k).pred j p

/-- No request of a sett's releases at .sys waits for the host's answers to what its port has posted (R373). -/
abbrev PortQuiet (r : Req) (s : State) : Prop :=
  r.release = true → 4 ≤ r.scope → (s.sett (crewSett r.crew)).posted = false ∧ (s.sett (crewSett r.crew)).flushed ≤ s.cycle

/-- A request with the single lane `x`, for `tg`, has come to the place that performs it, and nothing that it waits for is left. -/
structure AtPlace (s : State) (id : Nat) (r : Req) (x : LaneReq) (tg : Target) : Prop where
  req : s.req id = some r
  lanes : r.lanes = [x]
  target : x.target = some tg
  plain : r.sym = none ∧ r.phase = 1 ∧ r.awaiting = false ∧ tg.sh = false ∧ tg.rep = false
  lane : x.lane < 32 ∧ x.out = true ∧ x.free = true ∧ x.done = false ∧ x.wait = false ∧ x.back = false ∧ x.due ≤ s.cycle
  deps : s.depsMet r = true
  port : PortQuiet r s
  owner : s.heldAtOwner r x tg = false

/-- The active lanes of the issue, with their addresses. -/
def laneAddrs (i : Instr) (u : Issue) (s : State) : List (Nat × Nat) :=
  ((s.crew u.crew).active i u.lanes).map (fun l => (l, (s.crew u.crew).laneAddr i l))

/-- An operand as a 32-bit word, and as a 64-bit one. -/
def w32 (v : Nat → Nat) (k : Nat) : BitVec 32 := BitVec.ofNat 32 (v k)
def w64 (v : Nat → Nat) (k : Nat) : BitVec 64 := BitVec.ofNat 64 (v k)

/-- Saturation to i32 (R14), as the 32-bit word. -/
def clampS (x : Int) : Nat := (BitVec.ofInt 32 (max (-(2 ^ 31)) (min x (2 ^ 31 - 1)))).toNat

/-- The oldest command of a sett ends (R372): its record takes status and ret, CMDHEAD advances, vector 0 is raised. -/
structure Answered (q status ret : Nat) (s t : State) : Prop where
  record : t.hostMem = Memory.writeN (Memory.writeN s.hostMem ((s.sett q).commandAt + 4) 1 status) ((s.sett q).commandAt + 32) 8 ret
  head : (t.sett q).cmdHead = ((s.sett q).cmdHead + 1) % 2 ^ 64
  vector : (t.sett q).raised = (s.sett q).raised ++ [0]

/-- Source operand k of `i` in a lane once the symbol of the pending registers has the value σ. -/
def operandGiven (i : Instr) (c : Crew) (l : Nat) (σ : Word) : Nat → Nat :=
  fun k => match (info i).srcList[k]? with
    | none => 0
    | some o => match c.form (c.win o.1) with
      | some y => (y.value l σ).toNat
      | none => c.operand o (0, 0) l

/-- `i`, where it composes (R91), leaves a form that gives, for every value of the symbol, what `fn` gives on the operands at that
value; no register's value changes and nothing but the crew does. -/
def ComposesAs (i : Instr) (fn : (Nat → Nat) → Word) : Prop :=
  ∀ (u : Issue) (s : State) (x : Form), Runs i u s → (s.crew u.crew).composes i u.lanes = some x →
    ∃ t, exec i s = .next t ∧ OnlyCrew u s t ∧
      let c := s.crew u.crew
      let d := t.crew u.crew
      Advanced i u c d ∧ (∀ r l, l < 32 → (d.slot r l).val = (c.slot r l).val) ∧ CrewKept c d ∧
      ∀ l ∈ c.active i u.lanes, ∃ g, d.form (c.win ((info i).dst.getD (0, 1)).1) = some g ∧ g.sym = x.sym ∧
        ∀ σ : Word, g.value l σ = fn (operandGiven i c l σ)

end Sys2Proof
end

