-- ==== Sys2Proof/Certificates/Slice0/Obligations.lean ====
section
/-! DEFINITION. The statements for the provers. Each names the rules of spec/ that it formalises; what rests on the model's own choice says so with its log entry. -/

open Sys2Proof Sys2Proof.Machine

/-- The memories are canonical after reset. Where the rules leave a point open it follows the model's choice: log 3. -/
def Obligations.ResetMemoryCanonical : Prop :=
  State.reset.memOk

/-- Whatever a step does, HBM and host memory stay in canonical form. Where the rules leave a point open it follows the model's choice:
log 3. -/
def Obligations.StepKeepsMemory : Prop :=
  ∀ s t : State, s.memOk → step s = .next t → t.memOk

/-- A step whose first issue of the turn stands at an instruction is that instruction's execution, with the issue taken off the turn
(log 4). The instruction is the one that the bytes at the program counter decode to: for an instruction of one word, those at the place
in HBM that its page names (R42). -/
def Obligations.StepRunsDecoded : Prop :=
  ∀ (s : State) (u : Issue) (rest : List Issue) (i : Instr),
    let v := s.take u rest
    s.runs = true → s.turn = u :: rest → v.stands u = true →
    (v.fetch u.crew u.pc.toNat = .instr i → step s = exec i v) ∧
    (∀ (tg : Target) (q a : Nat) (r : List Byte), isNear u.pc.toNat = false →
      v.translate (crewSett u.crew) (v.crew u.crew).core u.pc.toNat 4 .fetch = .ok tg → tg.place = .hbm q a →
      Tab.get none v.codeOld (hbmAddr q a / 4) = none →
      let w := BitVec.ofNat 32 (v.memRead tg 4).1
      fM w ≠ 127 → fM w ≠ 78 → decode (wordBytes w) = .ok (i, r) → step s = exec i v)

/-- Every instruction and every event answers a next state in every state: no stop is left in the model. -/
def Obligations.EveryInstructionAnswers : Prop :=
  ∀ (i : Instr) (s : State), ∃ t, exec i s = .next t

/-- Words of the spec's worked encodings decode to the instructions they stand for (spec/03 to spec/06). -/
def Obligations.DecodeWords : Prop :=
  decodeTableWord 32 0x5A2858CC = some (.ffma none 10 11 12 12) ∧
  decodeTableWord 32 0x600C201C = some (.fsfRsq none 3 4 12) ∧
  decodeTableWord 32 0x8544082C = some (.icmp none 5 1 1 2 12) ∧
  decodeTableWord 32 0x8C0C08AC = some (.pand none 3 1 10 12) ∧
  decodeTableWord 32 0x9E50A90C = some (.lxor none 20 21 16 12) ∧
  decodeTableWord 32 0x4610286C = some (.bfxs none 4 5 6 12) ∧
  decodeTableWord 32 0xFC08487C = some (.extFfs none 2 9 12) ∧
  decodeTableWord 64 0x6C60C9ACFF8CF000 = some (.hfma2 (some
    { mask := 12, rnd := 3, c := 30, mz := false, cnt := 0, rows := 0, cols := 0, strict := false }) 24 25 26 12) ∧
  decodeTableWord 32 0xF600002C = some (.win none 2 12)

/-- Decoding an encoded well-formed instruction gives it back, and leaves the bytes after it. -/
def Obligations.DecodeEncode : Prop :=
  ∀ (i : Instr) (r : List Byte), i.wf = true → decode (encodeBytes i ++ r) = .ok (i, r)

/-- What the decoder answers is a well-formed instruction: no reserved or illegal encoding falls through to one (R60). A word of major
0x00, and one of a major that no row has, is illegal with the reason of R60, whatever its other bits. -/
def Obligations.DecodedWellFormed : Prop :=
  (∀ (bs r : List Byte) (i : Instr), decode bs = .ok (i, r) → i.wf = true) ∧
  (∀ (w : Word), fM w = 0 → decode (wordBytes w) = .error (.illegal 1))

/-- Taking a trap outside a handler (R346): the frame holds the threads, the trap registers are written, all threads stand at the
handler, and of the crew nothing else changes; a translation for which its threads waited is given up with the wait. In a handler or
without a handler address the gang is killed (R346, R347). -/
def Obligations.TakingATrap : Prop :=
  ∀ (s : State) (k : Nat) (t : Trap) (pc : BitVec 64) (why : Nat) (lanes : Option LaneMask),
    (MayTrap k s → Trapped k s (s.takeTrap k t pc why lanes) t.code pc why lanes ∧
      let d := (s.takeTrap k t pc why lanes).crew k
      d = { s.crew k with handler := true, frame := d.frame, trapCode := d.trapCode, trapPc := d.trapPc, trapInfo := d.trapInfo,
                          trapLanes := lanes, trapEntry := none, threads := d.threads } ∧
      s.takeTrap k t pc why lanes = { s.forgetThreads k with crews := (s.takeTrap k t pc why lanes).crews } ∧
      ((s.crew k).threads.all (fun p => p.2.st != .parked) = true → s.forgetThreads k = s)) ∧
    (¬ MayTrap k s → s.takeTrap k t pc why lanes = s.killGang (crewSett k) (crewRec k))

/-- An instruction with an illegal field, or one that its crew's mode does not admit, traps with code 1 before any effect, whatever its
guard (R60); ILLEGAL_INSTRUCTION is that trap for words that are no instruction. The operand traps in their order (R46, R43, R26, R48): a
block or a lease's range beyond x127, a register beyond the allocation, a released source, for every instruction but BRX and RET, which
look at their target first. What holds an instruction back leaves everything as it is: it does not issue (R17, R29, R92). Where the rules
leave a point open it follows the model's choice: log 36, 37, 42, 113. -/
def Obligations.IssueTraps : Prop :=
  (∀ (i : Instr) (u : Issue) (s : State) (why : Nat), s.cur = some u → MayTrap u.crew s →
     ((info i).enc = true → s.illegalIn u.crew i = some why →
       ∃ t, exec i s = .next t ∧ Trapped u.crew s t 1 u.pc why (some u.lanes)) ∧
     (∃ t, exec (.illegalInstruction why) s = .next t ∧ Trapped u.crew s t 1 u.pc why (some u.lanes))) ∧
  (∀ (i : Instr) (u : Issue) (s : State), plain i = true → s.cur = some u → s.illegalIn u.crew i = none →
     (s.crew u.crew).held_ i u.lanes = false → MayTrap u.crew s →
     let c := s.crew u.crew
     let beyond := (info i).extentBad = true ∨ ∃ r, c.leaseRange i u.lanes = some r ∧ 128 < r.1 + r.2
     let outside := c.allocBad (info i) = true ∨ ∃ r, c.leaseRange i u.lanes = some r ∧ c.nregs < c.win r.1 + r.2
     (beyond → ∃ t, exec i s = .next t ∧ Trapped u.crew s t 2 u.pc 0 (some u.lanes)) ∧
     (¬ beyond → outside → ∃ t, exec i s = .next t ∧ Trapped u.crew s t 3 u.pc 0 (some u.lanes)) ∧
     (¬ beyond → ¬ outside → (c.asRead i u).deadLanes i u.lanes ++ c.deadSources i u ≠ [] →
       ∃ t, exec i s = .next t ∧ Trapped u.crew s t 4 u.pc
         (maskOf ((c.asRead i u).deadLanes i u.lanes ++ c.deadSources i u)).toNat (some u.lanes))) ∧
  (∀ (i : Instr) (u : Issue) (s : State), (info i).enc = true → s.cur = some u → s.illegalIn u.crew i = none →
     (s.crew u.crew).held_ i u.lanes = true → exec i s = .next s)

/-- Deferred traps (R348): delivery takes the first entry of the list outside handler mode, and waits in a handler that a thread still
executes. SYS.tret (R347, R180): out of the handler the threads that executed the trapping instruction resume at TRAPPC, the others as
the frame holds them, waiting ones with their phase and deadline, sleeping ones for their full time; the trap's fault buffer entry gets
res 3; without an active lane it passes, and outside a handler it is illegal with reason 4. Where the rules leave a point open it follows
the model's choice: log 48, 102. -/
def Obligations.DeferredAndReturned : Prop :=
  (∀ (s : State) (k : Nat) (d : Deferred) (ds : List Deferred), (s.crew k).deferred = d :: ds → (s.crew k).live = true →
     (MayTrap k s → ∃ t, exec (.deferredTrapDelivery k) s = .next t ∧
       Trapped k s t d.code d.pc d.info.toNat none ∧ (t.crew k).trapEntry = d.entry ∧
       ((s.sett (crewSett k)).trapWait = [] → (t.crew k).deferred = ds)) ∧
     ((s.crew k).handler = true → (s.crew k).allExited = false → exec (.deferredTrapDelivery k) s = .next s)) ∧
  (∀ (px : Option Pfx) (g : BitVec 4) (u : Issue) (s : State),
     (Runs (.sysTret px g) u s →
       ((s.crew u.crew).active (.sysTret px g) u.lanes ≠ [] →
         ∃ t, exec (.sysTret px g) s = .next t ∧ (t.crew u.crew).handler = false ∧
           (∀ l, l < 32 → (t.crew u.crew).thread l =
             if (match (s.crew u.crew).trapLanes with | some m => inMask m l | none => false)
             then { Thread.again (Tab.get {} (s.crew u.crew).frame l) s.cycle with
                      pc := (s.crew u.crew).trapPc, st := .ready, wait := 0, due := s.cycle }
             else Thread.again (Tab.get {} (s.crew u.crew).frame l) s.cycle) ∧
           (∀ r l, (t.crew u.crew).slot r l = (s.crew u.crew).slot r l) ∧ (t.crew u.crew).preds = (s.crew u.crew).preds ∧
           (t.crew u.crew).trapCode = (s.crew u.crew).trapCode ∧ (t.crew u.crew).trapPc = (s.crew u.crew).trapPc ∧
           (t.crew u.crew).trapInfo = (s.crew u.crew).trapInfo ∧
           (∀ k, k ≠ u.crew → t.crew k = s.crew k) ∧ t.hostMem = s.hostMem ∧
           (∀ e, (s.crew u.crew).trapEntry = some e → (t.fault (crewSett u.crew) e).res = 3) ∧
           ((s.crew u.crew).trapEntry = none → t.hbm = s.hbm)) ∧
       ((s.crew u.crew).active (.sysTret px g) u.lanes = [] →
         ∃ t, exec (.sysTret px g) s = .next t ∧ Passed (.sysTret px g) u s t)) ∧
     (s.cur = some u → illegalOf (.sysTret px g) = none → (s.crew u.crew).handler = false → MayTrap u.crew s →
       ∃ t, exec (.sysTret px g) s = .next t ∧ Trapped u.crew s t 1 u.pc 4 (some u.lanes)))

/-- SYS.trap and SYS.bkpt (R180): the program trap with A of the lowest active lane, and the breakpoint at its own address; with every
lane inactive neither does anything. -/
def Obligations.ProgramTraps : Prop :=
  ∀ (px : Option Pfx) (a : BitVec 7) (g : BitVec 4) (u : Issue) (s : State), MayTrap u.crew s →
    (Runs (.sysTrap px a g) u s →
      (∀ l ls, (s.crew u.crew).active (.sysTrap px a g) u.lanes = l :: ls →
        ∃ t, exec (.sysTrap px a g) s = .next t ∧
          Trapped u.crew s t 15 u.pc ((s.crew u.crew).slot ((s.crew u.crew).win a.toNat) l).val.toNat (some u.lanes)) ∧
      ((s.crew u.crew).active (.sysTrap px a g) u.lanes = [] →
        ∃ t, exec (.sysTrap px a g) s = .next t ∧ Passed (.sysTrap px a g) u s t)) ∧
    (Runs (.sysBkpt px g) u s →
      ((s.crew u.crew).active (.sysBkpt px g) u.lanes ≠ [] →
        ∃ t, exec (.sysBkpt px g) s = .next t ∧ Trapped u.crew s t 16 u.pc 0 (some u.lanes)) ∧
      ((s.crew u.crew).active (.sysBkpt px g) u.lanes = [] →
        ∃ t, exec (.sysBkpt px g) s = .next t ∧ Passed (.sysBkpt px g) u s t))

/-- PTOX and XTOP (R130): the twelve predicates as a word, and bits 11:0 of A as the twelve predicates of an active lane; a masked
lane's are cleared where the mask zeroes. -/
def Obligations.PredicateTransfer : Prop :=
  ∀ (px : Option Pfx) (d a : BitVec 7) (g : BitVec 4) (u : Issue) (s : State),
    (encodeBase (.ptox px d g)).extractLsb' 25 7 = 0x4A#7 ∧ (encodeBase (.xtop px a g)).extractLsb' 25 7 = 0x4B#7 ∧
    Gives (.ptox px d g) u s (fun l _ _ => (Tab.get 0 (s.crew u.crew).preds l).toNat) ∧
    (∀ l p, p < 12 → (s.crew u.crew).pred l p = (Tab.get 0 (s.crew u.crew).preds l).toNat.testBit p) ∧
    (Runs (.xtop px a g) u s →
    ∃ t, exec (.xtop px a g) s = .next t ∧ OnlyCrew u s t ∧
      let c := s.crew u.crew
      let d := t.crew u.crew
      Advanced (.xtop px a g) u c d ∧ (∀ r l, l < 32 → (d.slot r l).val = (c.slot r l).val) ∧ CrewKeptPreds c d ∧
      (∀ l ∈ c.active (.xtop px a g) u.lanes, ∀ p, p < 12 → d.pred l p = (c.slot (c.win a.toNat) l).val.getLsbD p) ∧
      (∀ l ∈ c.zeroed (.xtop px a g) u.lanes, ∀ p, p < 12 → d.pred l p = false) ∧
      (∀ l, l ∉ c.active (.xtop px a g) u.lanes ++ c.zeroed (.xtop px a g) u.lanes → ∀ p, p < 12 → d.pred l p = c.pred l p))

/-- WRSYS (R135, R136, R138): with w the OR of A over the active lanes, a write of STATUS clears those of its bits 11:8 and 4:0 that w
names; in a handler a write of TRAPCODE, TRAPPC, TRAPINFO or TRAPPCHI leaves w there; every other field of the crew stays, and without
an active lane all of them do. Outside a handler a write of a trap register is illegal with reason 4. -/
def Obligations.SystemRegisterWrites : Prop :=
  ∀ (px : Option Pfx) (a n : BitVec 7) (g : BitVec 4) (u : Issue) (s : State),
    let i : Instr := .wrsys px a n g
    let c := s.crew u.crew
    let act := c.active i u.lanes
    let w := act.foldl (fun w l => w ||| (c.slot (c.win a.toNat) l).val) 0
    (Runs i u s →
      ∃ t, exec i s = .next t ∧ OnlyCrew u s t ∧
        let d := t.crew u.crew
        Advanced i u c d ∧ (∀ r l, l < 32 → (d.slot r l).val = (c.slot r l).val) ∧
        CrewKept { c with status := d.status, trapCode := d.trapCode, trapPc := d.trapPc, trapInfo := d.trapInfo } d ∧
        (act = [] → d.status = c.status ∧ d.trapCode = c.trapCode ∧ d.trapPc = c.trapPc ∧ d.trapInfo = c.trapInfo) ∧
        (act ≠ [] →
          d.status = (if n = 5 then c.status &&& ~~~(w &&& 0xF1F) else c.status) ∧
          d.trapCode = (if n = 9 then w else c.trapCode) ∧
          d.trapInfo = (if n = 11 then w else c.trapInfo) ∧
          d.trapPc.setWidth 32 = (if n = 10 then w else c.trapPc.setWidth 32) ∧
          (d.trapPc >>> 32).setWidth 32 = (if n = 12 then w else (c.trapPc >>> 32).setWidth 32))) ∧
    (s.cur = some u → illegalOf i = none → n ≠ 5 → c.handler = false → MayTrap u.crew s →
      ∃ t, exec i s = .next t ∧ Trapped u.crew s t 1 u.pc 4 (some u.lanes))

/-- BRA and CALL (R175, R176): active lanes move to the word's address plus four times the immediate, the others go on; CALL leaves the
next instruction's address in x126:x127. BRX and RET (R175, R176): active lanes move to the address in their register pair; an unaligned
one is illegal with reason 8. -/
def Obligations.Branches : Prop :=
  (∀ (k : BitVec 21) (g : BitVec 4) (u : Issue) (s : State),
     (Runs (.bra k g) u s → ∃ t, exec (.bra k g) s = .next t ∧
       Branched (.bra k g) u s t (fun _ => u.pc + 4 * k.signExtend 64)) ∧
     (Runs (.call k g) u s → ∃ t, exec (.call k g) s = .next t ∧
       Branched (.call k g) u s t (fun _ => u.pc + 4 * k.signExtend 64) ∧
       ∀ l ∈ (s.crew u.crew).active (.call k g) u.lanes,
         (t.crew u.crew).slot ((s.crew u.crew).win 126) l =
           { val := (u.pc + 4).setWidth 32, cnt := BitVec.ofNat 2 (g.toNat - 12), rel := false } ∧
         (t.crew u.crew).slot ((s.crew u.crew).win 127) l =
           { val := ((u.pc + 4) >>> 32).setWidth 32, cnt := BitVec.ofNat 2 (g.toNat - 12), rel := false })) ∧
  (∀ (a : BitVec 7) (g : BitVec 4) (u : Issue) (s : State),
     (Runs (.brx a g) u s →
       ((∀ l ∈ (s.crew u.crew).active (.brx a g) u.lanes, (s.crew u.crew).laneAddr (.brx a g) l % 4 = 0) →
         ∃ t, exec (.brx a g) s = .next t ∧
           Branched (.brx a g) u s t (fun l => BitVec.ofNat 64 ((s.crew u.crew).operand (a.toNat, 2) (0, 0) l))) ∧
       ((∃ l ∈ (s.crew u.crew).active (.brx a g) u.lanes, (s.crew u.crew).laneAddr (.brx a g) l % 4 ≠ 0) → MayTrap u.crew s →
         ∃ t, exec (.brx a g) s = .next t ∧ Trapped u.crew s t 1 u.pc 8 (some u.lanes))) ∧
     (Runs (.ret g) u s →
       ((∀ l ∈ (s.crew u.crew).active (.ret g) u.lanes, (s.crew u.crew).laneAddr (.ret g) l % 4 = 0) →
         ∃ t, exec (.ret g) s = .next t ∧
           Branched (.ret g) u s t (fun l => BitVec.ofNat 64 ((s.crew u.crew).operand (126, 2) (0, 0) l))) ∧
       ((∃ l ∈ (s.crew u.crew).active (.ret g) u.lanes, (s.crew u.crew).laneAddr (.ret g) l % 4 ≠ 0) → MayTrap u.crew s →
         ∃ t, exec (.ret g) s = .next t ∧ Trapped u.crew s t 1 u.pc 8 (some u.lanes))))

/-- EXIT (R177): active threads have ended and are never ready again; other lanes of the path go on. SYS.nop, SYS.conv and SYS.yield
(R180, R181): nothing but the program counter; a yielding crew leaves the active set where another crew of its core is ready outside it.
SYS.sleep (R180): each active thread is not ready for N(A) to N(A) + 64 cycles, and its wake is on the agenda. None of them changes
another field of the crew. Where the rules leave a point open it follows the model's choice: log 6, 13. -/
def Obligations.ThreadControl : Prop :=
  (∀ (g : BitVec 4) (u : Issue) (s : State), Runs (.exit g) u s →
     ∃ v, exec (.exit g) s = .next (v.checkEnd u.crew) ∧ OnlyCrew u s v ∧ CrewKept (s.crew u.crew) (v.crew u.crew) ∧
       (∀ l ∈ (s.crew u.crew).active (.exit g) u.lanes, ((v.crew u.crew).thread l).st = .exited) ∧
       (∀ l ∈ lanesOf u.lanes, l ∉ (s.crew u.crew).active (.exit g) u.lanes →
         ((v.crew u.crew).thread l).pc = u.pc + 4 ∧ ((v.crew u.crew).thread l).st = ((s.crew u.crew).thread l).st) ∧
       (∀ l, l ∉ lanesOf u.lanes → (v.crew u.crew).thread l = (s.crew u.crew).thread l) ∧
       (∀ r l, l < 32 → ((v.crew u.crew).slot r l).val = ((s.crew u.crew).slot r l).val)) ∧
  (∀ (px : Option Pfx) (g : BitVec 4) (u : Issue) (s : State),
     (Runs (.sysNop px g) u s → ∃ t, exec (.sysNop px g) s = .next t ∧ Passed (.sysNop px g) u s t) ∧
     (Runs (.sysConv px g) u s → ∃ t, exec (.sysConv px g) s = .next t ∧ Passed (.sysConv px g) u s t) ∧
     (Runs (.sysYield px g) u s → ∃ v, Passed (.sysYield px g) u s v ∧
       exec (.sysYield px g) s = .next
         (if (s.crew u.crew).active (.sysYield px g) u.lanes ≠ [] ∧ s.readyOutside (s.crew u.crew).core ≠ []
          then v.leaveActive u.crew else v))) ∧
  (∀ (px : Option Pfx) (a : BitVec 7) (g : BitVec 4) (u : Issue) (s : State), Runs (.sysSleep px a g) u s →
     ∃ t, exec (.sysSleep px a g) s = .next t ∧
       (∀ l ∈ (s.crew u.crew).active (.sysSleep px a g) u.lanes, ∃ n,
         ((s.crew u.crew).slot ((s.crew u.crew).win a.toNat) l).val.toNat ≤ n ∧
         n ≤ ((s.crew u.crew).slot ((s.crew u.crew).win a.toNat) l).val.toNat + 64 ∧
         ((t.crew u.crew).thread l).st = .sleeping (s.cycle + n) n (nextPc u (.sysSleep px a g)) ∧
         (⟨s.cycle + n, 1024 * 70, .sleepExpiry u.crew l⟩ : Timed) ∈ t.agenda) ∧
       (∀ l ∈ lanesOf u.lanes, l ∉ (s.crew u.crew).active (.sysSleep px a g) u.lanes →
         ((t.crew u.crew).thread l).pc = nextPc u (.sysSleep px a g)) ∧
       (∀ l, l ∉ lanesOf u.lanes → (t.crew u.crew).thread l = (s.crew u.crew).thread l) ∧
       (∀ r l, l < 32 → ((t.crew u.crew).slot r l).val = ((s.crew u.crew).slot r l).val) ∧
       CrewKept (s.crew u.crew) (t.crew u.crew) ∧ (∀ k, k ≠ u.crew → t.crew k = s.crew k) ∧
       t = { s with crews := t.crews, cores := t.cores, agenda := t.agenda, draws := t.draws })

/-- WIN (R178): the base moves for the whole crew where it stays in the allocation, and the instruction traps with register-allocation
where it does not; with every lane inactive it only passes. -/
def Obligations.Window : Prop :=
  ∀ (px : Option Pfx) (k : BitVec 14) (g : BitVec 4) (u : Issue) (s : State),
    encodeBase (.win px k g) = 0x7B#7 ++ 0#6 ++ 0#1 ++ k ++ g ∧ encodeBase (.winAbs px k g) = 0x7B#7 ++ 0#6 ++ 1#1 ++ k ++ g ∧
    (info (.win px k g)).cls = .single ∧ (info (.winAbs px k g)).cls = .single ∧ IssueClass.single.latency = 8 ∧
    (∀ (i : Instr) (v : Int), (i = .win px k g ∧ v = (s.crew u.crew).wb + k.toInt) ∨ (i = .winAbs px k g ∧ v = k.toInt) →
      Runs i u s →
      ((s.crew u.crew).active i u.lanes = [] → ∃ t, exec i s = .next t ∧ Passed i u s t) ∧
      ((s.crew u.crew).active i u.lanes ≠ [] → 0 ≤ v → v < ((s.crew u.crew).nregs / 16 : Nat) →
        ∃ t, exec i s = .next t ∧ OnlyCrew u s t ∧ (t.crew u.crew).wb = v.toNat ∧ (t.crew u.crew).nextAt = s.cycle + 8 ∧
          Advanced i u (s.crew u.crew) (t.crew u.crew) ∧
          (∀ r l, l < 32 → ((t.crew u.crew).slot r l).val = ((s.crew u.crew).slot r l).val) ∧
          CrewKept { s.crew u.crew with wb := v.toNat, nextAt := s.cycle + 8 } (t.crew u.crew)) ∧
      ((s.crew u.crew).active i u.lanes ≠ [] → ¬ (0 ≤ v ∧ v < ((s.crew u.crew).nregs / 16 : Nat)) → MayTrap u.crew s →
        ∃ t, exec i s = .next t ∧ Trapped u.crew s t 3 u.pc 0 (some u.lanes)))

/-- WAIT (R166): it passes where no counter stands above its limit, or no lane is active; else it does not issue. -/
def Obligations.Wait : Prop :=
  ∀ (px : Option Pfx) (l : BitVec 6) (st : BitVec 5) (c : BitVec 6) (t : BitVec 4) (g : BitVec 4) (u : Issue) (s : State),
    (encodeBase (.wait px l st c t g)).extractLsb' 25 7 = 0x6C#7 ∧
    (Runs (.wait px l st c t g) u s →
    let k := s.crew u.crew
    (k.active (.wait px l st c t g) u.lanes = [] ∨
        (k.loads ≤ l.toNat ∧ k.stores ≤ st.toNat ∧ k.copies ≤ c.toNat ∧ k.tiles ≤ t.toNat) →
      ∃ v, exec (.wait px l st c t g) s = .next v ∧ Passed (.wait px l st c t g) u s v) ∧
    (k.active (.wait px l st c t g) u.lanes ≠ [] →
      ¬ (k.loads ≤ l.toNat ∧ k.stores ≤ st.toNat ∧ k.copies ≤ c.toNat ∧ k.tiles ≤ t.toNat) →
      exec (.wait px l st c t g) s = .next s))

/-- Integer arithmetic (R104 to R109, R115). 64-bit sums and products. The EXT group. -/
def Obligations.IntegerArithmetic : Prop :=
  (∀ (px : Option Pfx) (d a b i : BitVec 7) (g : BitVec 4) (u : Issue) (s : State),
     Gives (.iadd px d a b g) u s (fun _ _ v => (w32 v 0 + w32 v 1).toNat) ∧
     Gives (.isub px d a b g) u s (fun _ _ v => (w32 v 0 - w32 v 1).toNat) ∧
     Gives (.iaddi px d a i g) u s (fun _ _ v => (w32 v 0 + i.signExtend 32).toNat) ∧
     Gives (.imul px d a b g) u s (fun _ _ v => (w32 v 0 * w32 v 1).toNat) ∧
     Gives (.imulh px d a b g) u s (fun _ _ v => (((w32 v 0).signExtend 64 * (w32 v 1).signExtend 64) >>> 32).toNat) ∧
     Gives (.imulhn px d a b g) u s (fun _ _ v => (((w32 v 0).zeroExtend 64 * (w32 v 1).zeroExtend 64) >>> 32).toNat) ∧
     Gives (.imad px d a b g) u s (fun _ _ v => (w32 v 0 * w32 v 1 + w32 v 2).toNat) ∧
     Gives (.imin px d a b g) u s (fun _ _ v => if (w32 v 0).sle (w32 v 1) then v 0 else v 1) ∧
     Gives (.imax px d a b g) u s (fun _ _ v => if (w32 v 0).sle (w32 v 1) then v 1 else v 0) ∧
     Gives (.nmin px d a b g) u s (fun _ _ v => if (w32 v 0).ule (w32 v 1) then v 0 else v 1) ∧
     Gives (.nmax px d a b g) u s (fun _ _ v => if (w32 v 0).ule (w32 v 1) then v 1 else v 0) ∧
     Gives (.imuli px d a i g) u s (fun _ _ v => (w32 v 0 * i.signExtend 32).toNat) ∧
     Gives (.iadds px d a b g) u s (fun _ _ v => clampS ((w32 v 0).toInt + (w32 v 1).toInt)) ∧
     Gives (.nadds px d a b g) u s (fun _ _ v => min ((w32 v 0).toNat + (w32 v 1).toNat) (2 ^ 32 - 1)) ∧
     Gives (.isubs px d a b g) u s (fun _ _ v => clampS ((w32 v 0).toInt - (w32 v 1).toInt))) ∧
  (∀ (px : Option Pfx) (d a b : BitVec 7) (g : BitVec 4) (u : Issue) (s : State),
     Gives (.iadd64 px d a b g) u s (fun _ _ v => (w64 v 0 + w64 v 1).toNat) ∧
     Gives (.isub64 px d a b g) u s (fun _ _ v => (w64 v 0 - w64 v 1).toNat) ∧
     Gives (.imulw px d a b g) u s (fun _ _ v => ((w32 v 0).signExtend 64 * (w32 v 1).signExtend 64).toNat) ∧
     Gives (.nmulw px d a b g) u s (fun _ _ v => ((w32 v 0).zeroExtend 64 * (w32 v 1).zeroExtend 64).toNat)) ∧
  (∀ (px : Option Pfx) (d a : BitVec 7) (g : BitVec 4) (u : Issue) (s : State),
     Gives (.extIabs px d a g) u s (fun _ _ v => (if (w32 v 0).slt 0 then -(w32 v 0) else w32 v 0).toNat) ∧
     Gives (.extIneg px d a g) u s (fun _ _ v => (-(w32 v 0)).toNat) ∧
     Gives (.extNot px d a g) u s (fun _ _ v => (~~~(w32 v 0)).toNat) ∧
     Gives (.extSext8 px d a g) u s (fun _ _ v => (((w32 v 0).truncate 8).signExtend 32).toNat) ∧
     Gives (.extSext16 px d a g) u s (fun _ _ v => (((w32 v 0).truncate 16).signExtend 32).toNat) ∧
     Gives (.extZext8 px d a g) u s (fun _ _ v => ((w32 v 0).truncate 8).toNat) ∧
     Gives (.extZext16 px d a g) u s (fun _ _ v => ((w32 v 0).truncate 16).toNat) ∧
     Gives (.extFfs px d a g) u s (fun _ _ v => ((List.range 32).find? (fun k => (w32 v 0).getLsbD k)).getD 32))

/-- Logic and shifts. Bit fields. -/
def Obligations.LogicAndFields : Prop :=
  (∀ (px : Option Pfx) (d a b i k : BitVec 7) (g : BitVec 4) (u : Issue) (s : State),
     Gives (.and px d a b g) u s (fun _ _ v => (w32 v 0 &&& w32 v 1).toNat) ∧
     Gives (.or px d a b g) u s (fun _ _ v => (w32 v 0 ||| w32 v 1).toNat) ∧
     Gives (.xor px d a b g) u s (fun _ _ v => (w32 v 0 ^^^ w32 v 1).toNat) ∧
     Gives (.andn px d a b g) u s (fun _ _ v => (w32 v 0 &&& ~~~(w32 v 1)).toNat) ∧
     Gives (.andi px d a i g) u s (fun _ _ v => (w32 v 0 &&& i.signExtend 32).toNat) ∧
     Gives (.ori px d a i g) u s (fun _ _ v => (w32 v 0 ||| i.signExtend 32).toNat) ∧
     Gives (.xori px d a i g) u s (fun _ _ v => (w32 v 0 ^^^ i.signExtend 32).toNat) ∧
     Gives (.shl px d a b g) u s (fun _ _ v => (w32 v 0 <<< (w32 v 1).toNat).toNat) ∧
     Gives (.shr px d a b g) u s (fun _ _ v => (w32 v 0 >>> (w32 v 1).toNat).toNat) ∧
     Gives (.sar px d a b g) u s (fun _ _ v => ((w32 v 0).sshiftRight (w32 v 1).toNat).toNat) ∧
     Gives (.shli px d a k g) u s (fun _ _ v => (w32 v 0 <<< k.toNat).toNat) ∧
     Gives (.shri px d a k g) u s (fun _ _ v => (w32 v 0 >>> k.toNat).toNat) ∧
     Gives (.sari px d a k g) u s (fun _ _ v => ((w32 v 0).sshiftRight k.toNat).toNat) ∧
     Gives (.popc px d a g) u s (fun _ _ v => ((List.range 32).filter (fun k => (w32 v 0).getLsbD k)).length) ∧
     Gives (.clz px d a g) u s (fun _ _ v => ((List.range 32).find? (fun k => (w32 v 0).getLsbD (31 - k))).getD 32) ∧
     Gives (.brev px d a g) u s (fun _ _ v => (w32 v 0).reverse.toNat)) ∧
  (∀ (px : Option Pfx) (d a b : BitVec 7) (g : BitVec 4) (u : Issue) (s : State),
     Gives (.fshl px d a b g) u s (fun _ _ v => funnel true (v 0) (v 2) (v 1)) ∧
     Gives (.fshr px d a b g) u s (fun _ _ v => funnel false (v 0) (v 2) (v 1)) ∧
     Gives (.bfxs px d a b g) u s (fun _ _ v => fieldS (v 0) (v 1)) ∧
     Gives (.bfxn px d a b g) u s (fun _ _ v => v 0 / 2 ^ ctlOff (v 1) % 2 ^ ctlWidth (v 1)) ∧
     Gives (.bfi px d a b g) u s (fun _ _ v => insertField (v 2) (v 0) (v 1)) ∧
     Gives (.bmix px d a b g) u s (fun _ _ v => bmix (v 0) (v 2) (v 1)))

/-- FP32 arithmetic (R80, R113, R114). Special functions (R116; the enclosure of transcendental results is the model's, log 52). -/
def Obligations.FloatingPoint : Prop :=
  (∀ (px : Option Pfx) (d a b : BitVec 7) (g : BitVec 4) (u : Issue) (s : State),
     Gives (.fadd px d a b g) u s (fun _ _ v => fadd32 (rndOf px) (v 0) (v 1)) ∧
     Gives (.fsub px d a b g) u s (fun _ _ v => fsub32 (rndOf px) (v 0) (v 1)) ∧
     Gives (.fmul px d a b g) u s (fun _ _ v => fmul32 (rndOf px) (v 0) (v 1)) ∧
     Gives (.ffma px d a b g) u s (fun _ _ v => ffma32 (rndOf px) (v 0) (v 1) (v 2)) ∧
     Gives (.fmin px d a b g) u s (fun _ _ v => (fminmax false (w32 v 0) (w32 v 1)).toNat) ∧
     Gives (.fmax px d a b g) u s (fun _ _ v => (fminmax true (w32 v 0) (w32 v 1)).toNat)) ∧
  (∀ (px : Option Pfx) (d a : BitVec 7) (g : BitVec 4) (u : Issue) (s : State),
     Gives (.fsfRcp px d a g) u s (fun _ _ v => ffun (rndOf px) fRcp (v 0)) ∧
     Gives (.fsfRsq px d a g) u s (fun _ _ v => ffun (rndOf px) fRsq (v 0)) ∧
     Gives (.fsfSqrt px d a g) u s (fun _ _ v => ffun (rndOf px) fSqrt (v 0)) ∧
     Gives (.fsfExp2 px d a g) u s (fun _ _ v => ffun (rndOf px) fExp2 (v 0)) ∧
     Gives (.fsfLog2 px d a g) u s (fun _ _ v => ffun (rndOf px) fLog2 (v 0)) ∧
     Gives (.fsfSinpi px d a g) u s (fun _ _ v => ffun (rndOf px) fSinpi (v 0)) ∧
     Gives (.fsfCospi px d a g) u s (fun _ _ v => ffun (rndOf px) fCospi (v 0)) ∧
     Gives (.fsfTanh px d a g) u s (fun _ _ v => ffun (rndOf px) fTanh (v 0)) ∧
     Gives (.fsfAbs px d a g) u s (fun _ _ v => ffun (rndOf px) FVal.abs (v 0)) ∧
     Gives (.fsfNeg px d a g) u s (fun _ _ v => ffun (rndOf px) FVal.neg (v 0)) ∧
     Gives (.fsfFract px d a g) u s (fun _ _ v => ffun (rndOf px) fFract (v 0)) ∧
     Gives (.fsfFloor px d a g) u s (fun _ _ v => ffun (rndOf px) fFloor (v 0)) ∧
     Gives (.fsfCeil px d a g) u s (fun _ _ v => ffun (rndOf px) fCeil (v 0)) ∧
     Gives (.fsfTrunc px d a g) u s (fun _ _ v => ffun (rndOf px) fTrunc (v 0)) ∧
     Gives (.fsfRint px d a g) u s (fun _ _ v => ffun (rndOf px) (fRint (rndOf px)) (v 0)))

/-- Packed arithmetic and dot products. Conversions and scaling. -/
def Obligations.PackedAndConverts : Prop :=
  (∀ (px : Option Pfx) (d a b : BitVec 7) (g : BitVec 4) (u : Issue) (s : State),
     Gives (.badd2 px d a b g) u s (fun _ _ v => packed2 .bf16 (rndOf px) (fun x y _ => FVal.add (rndOf px) x y) (v 0) (v 1) 0) ∧
     Gives (.bmul2 px d a b g) u s (fun _ _ v => packed2 .bf16 (rndOf px) (fun x y _ => x.mul y) (v 0) (v 1) 0) ∧
     Gives (.bfma2 px d a b g) u s (fun _ _ v => packed2 .bf16 (rndOf px) (fun x y z => FVal.add (rndOf px) (x.mul y) z) (v 0) (v 1) (v 2)) ∧
     Gives (.hadd2 px d a b g) u s (fun _ _ v => packed2 .fp16 (rndOf px) (fun x y _ => FVal.add (rndOf px) x y) (v 0) (v 1) 0) ∧
     Gives (.hmul2 px d a b g) u s (fun _ _ v => packed2 .fp16 (rndOf px) (fun x y _ => x.mul y) (v 0) (v 1) 0) ∧
     Gives (.hfma2 px d a b g) u s (fun _ _ v => packed2 .fp16 (rndOf px) (fun x y z => FVal.add (rndOf px) (x.mul y) z) (v 0) (v 1) (v 2)) ∧
     Gives (.dot4i px d a b g) u s (fun _ _ v => ((List.range 4).foldl (fun x e => x + (((w32 v 0).extractLsb' (8 * e) 8).signExtend 32) * (((w32 v 1).extractLsb' (8 * e) 8).signExtend 32)) (w32 v 2)).toNat) ∧
     Gives (.dot2b px d a b g) u s (fun _ _ v => dotF .bf16 16 2 (rndOf px) (v 0) (v 1) (v 2)) ∧
     Gives (.dot4e4 px d a b g) u s (fun _ _ v => dotF .e4m3 8 4 (rndOf px) (v 0) (v 1) (v 2)) ∧
     Gives (.dot4e5 px d a b g) u s (fun _ _ v => dotF .e5m2 8 4 (rndOf px) (v 0) (v 1) (v 2)) ∧
     Gives (.dsdot4 px d a b g) u s (fun _ _ v => (BitVec.ofInt 32 ((v 2 : Int) + ((List.range 4).map (fun e => ds8Value (byteOf (v 0) e) * sext 8 (byteOf (v 1) e))).sum)).toNat)) ∧
  (∀ (px : Option Pfx) (d a b : BitVec 7) (g f : BitVec 4) (b1 : BitVec 1) (b2 : BitVec 2) (x5 : BitVec 5) (u : Issue) (s : State),
     Gives (.cvt px d a b1 b2 f g) u s (fun _ _ v => if b1 = 0 then cvtTo (rndOf px) f.toNat b2.toNat (v 0) (v 1) else cvtFrom (rndOf px) f.toNat b2.toNat (v 0)) ∧
     Gives (.cvtmx px d a x5 b2 g) u s (fun l e v => mxScaled (rndOf px) true (scaleByte (s.crew u.crew) u (.cvtmx px d a x5 b2 g) e l) (v 0)) ∧
     Gives (.qmx px d a x5 b2 g) u s (fun l e v => mxScaled (rndOf px) false (scaleByte (s.crew u.crew) u (.qmx px d a x5 b2 g) e l) (v 0)) ∧
     Gives (.mxsclE4m3 px d a g) u s (fun _ _ v => mxscl 8 (v 0)) ∧
     Gives (.mxsclE5m2 px d a g) u s (fun _ _ v => mxscl 15 (v 0)) ∧
     Gives (.mxsclE2m3 px d a g) u s (fun _ _ v => mxscl 2 (v 0)) ∧
     Gives (.mxsclE3m2 px d a g) u s (fun _ _ v => mxscl 4 (v 0)) ∧
     Gives (.mxsclE2m1 px d a g) u s (fun _ _ v => mxscl 2 (v 0)) ∧
     Gives (.mxsclMxint8 px d a g) u s (fun _ _ v => mxscl 0 (v 0)) ∧
     Gives (.dsmul px d a b g) u s (fun _ _ v => (BitVec.ofInt 32 (ds8Value (v 0 % 256) * v 1)).toNat) ∧
     Gives (.dscvtFromf32 px d a b2 g) u s (fun _ _ v => putByte (v 1) b2.toNat (ds8Round (rndOf px) (fin32 (rndOf px) (v 0)))) ∧
     Gives (.dscvtTof32 px d a b2 g) u s (fun _ _ v => Fmt.fp32.round 0 (FVal.ofInt (ds8Value (byteOf (v 0) b2.toNat)))) ∧
     Gives (.dscvtFromi32 px d a b2 g) u s (fun _ _ v => putByte (v 1) b2.toNat (ds8Round (rndOf px) (FVal.ofInt (w32 v 0).toInt))) ∧
     Gives (.dscvtToi32 px d a b2 g) u s (fun _ _ v => (BitVec.ofInt 32 (ds8Value (byteOf (v 0) b2.toNat))).toNat) ∧
     Gives (.dscvtCanon px d a g) u s (fun _ _ v => ((List.range 4).map (fun k => ds8Canon (ds8Value (byteOf (v 0) k)) * 2 ^ (8 * k))).sum))

/-- Moves, exchanges, consensus values, system registers. -/
def Obligations.LaneMoves : Prop :=
  ∀ (px : Option Pfx) (d a b k : BitVec 7) (g j : BitVec 4) (b2 : BitVec 2) (x5 : BitVec 5) (i14 : BitVec 14) (lit : Word) (u : Issue) (s : State),
    Gives (.mov px d a g) u s (fun _ _ v => v 0) ∧
    Gives (.movi px d i14 g) u s (fun _ _ _ => (i14.signExtend 32).toNat) ∧
    Gives (.ldi px d g lit) u s (fun _ _ _ => lit.toNat) ∧
    Gives (.lxor px d a k g) u s (fun l _ _ => (beforeSlot u ((s.crew u.crew).win a.toNat) (l ^^^ k.toNat % 32)).val.toNat) ∧
    Gives (.lget px d a b g) u s (fun l _ _ => (beforeSlot u ((s.crew u.crew).win a.toNat) ((beforeSlot u ((s.crew u.crew).win b.toNat) l).val.toNat % 32)).val.toNat) ∧
    Gives (.lrot px d a k g) u s (fun l _ _ => (beforeSlot u ((s.crew u.crew).win a.toNat) ((l + 32 - k.toNat % 32) % 32)).val.toNat) ∧
    Gives (.lrots px d a b2 x5 g) u s (fun l _ _ => (beforeSlot u ((s.crew u.crew).win a.toNat) (l / 2 ^ (2 + b2.toNat) * 2 ^ (2 + b2.toNat) + (l % 2 ^ (2 + b2.toNat) + 2 ^ (2 + b2.toNat) - x5.toNat % 2 ^ (2 + b2.toNat)) % 2 ^ (2 + b2.toNat))).val.toNat) ∧
    Gives (.sel px d a b g) u s (fun l _ v => if 11 < g.toNat || (s.crew u.crew).pred l g.toNat then v 0 else v 1) ∧
    Gives (.consMask px d j g) u s (fun _ _ _ => (maskOf (((s.crew u.crew).active (.consMask px d j g) u.lanes).filter (fun n => (s.crew u.crew).pred n j.toNat))).toNat) ∧
    Gives (.consPeers px d a g) u s (fun _ _ v => (maskOf (((s.crew u.crew).active (.consPeers px d a g) u.lanes).filter (fun n => ((s.crew u.crew).slot ((s.crew u.crew).win a.toNat) n).val.toNat = v 0))).toNat) ∧
    Gives (.consCount px d j g) u s (fun _ _ _ => (((s.crew u.crew).active (.consCount px d j g) u.lanes).filter (fun n => (s.crew u.crew).pred n j.toNat)).length) ∧
    Gives (.consFirst px d j g) u s (fun _ _ _ => ((((s.crew u.crew).active (.consFirst px d j g) u.lanes).filter (fun n => (s.crew u.crew).pred n j.toNat)).head?).getD 32) ∧
    Gives (.rdsys px d a g) u s (fun l _ _ => (match a.toNat with | 0 => (s.crew u.crew).wb | 1 => l | 2 => (s.crew u.crew).idx | 3 => blockId (s.crew u.crew).block | 4 => (s.record (crewSett u.crew) (crewRec u.crew)).gang | 5 => (s.crew u.crew).status.toNat | 6 => (s.crew u.crew).symmask | 7 => s.time (crewSett u.crew) % 2 ^ 32 | 8 => s.time (crewSett u.crew) / 2 ^ 32 | 9 => (s.crew u.crew).trapCode.toNat | 10 => (s.crew u.crew).trapPc.toNat % 2 ^ 32 | 11 => (s.crew u.crew).trapInfo.toNat | 12 => (s.crew u.crew).trapPc.toNat / 2 ^ 32 | _ => 0)) ∧
    Gives (.sysRdtime px d g) u s (fun _ _ _ => s.time (crewSett u.crew)) ∧
    Gives (.sysMstat px d a g) u s (fun _ _ v => s.mstat u.crew (v 0))

/-- Predicate pairs. -/
def Obligations.PredicatePairs : Prop :=
  ∀ (px : Option Pfx) (a b i : BitVec 7) (g j j2 : BitVec 4) (c3 p : BitVec 3) (u : Issue) (s : State),
    GivesPair (.icmp px c3 p a b g) u s (fun _ v => condInt c3.toNat (w32 v 0).toInt (w32 v 1).toInt) ∧
    GivesPair (.ncmp px c3 p a b g) u s (fun _ v => condInt c3.toNat (v 0) (v 1)) ∧
    GivesPair (.fcmp px c3 p a b g) u s (fun _ v => condFloat c3.toNat (v 0) (v 1)) ∧
    GivesPair (.icmpi px c3 p a i g) u s (fun _ v => condInt c3.toNat (w32 v 0).toInt i.toInt) ∧
    GivesPair (.pand px p j j2 g) u s (fun l _ => (s.crew u.crew).pred l j.toNat && (s.crew u.crew).pred l j2.toNat) ∧
    GivesPair (.por px p j j2 g) u s (fun l _ => (s.crew u.crew).pred l j.toNat || (s.crew u.crew).pred l j2.toNat) ∧
    GivesPair (.pxor px p j j2 g) u s (fun l _ => (s.crew u.crew).pred l j.toNat != (s.crew u.crew).pred l j2.toNat) ∧
    GivesPair (.consNone px p j g) u s (fun _ _ => !((s.crew u.crew).active (.consNone px p j g) u.lanes).any (fun n => (s.crew u.crew).pred n j.toNat)) ∧
    GivesPair (.consEvery px p j g) u s (fun _ _ => ((s.crew u.crew).active (.consEvery px p j g) u.lanes).all (fun n => (s.crew u.crew).pred n j.toNat)) ∧
    GivesPair (.consSame px p a g) u s (fun _ v => ((s.crew u.crew).active (.consSame px p a g) u.lanes).all (fun n => ((s.crew u.crew).slot ((s.crew u.crew).win a.toNat) n).val.toNat = v 0)) ∧
    GivesPair (.sysElect px p g) u s (fun l _ => ((s.crew u.crew).active (.sysElect px p g) u.lanes).head? = some l)

/-- Counted reads (R25): an issued IADDI counts one read of its source in each lane in which it executes, so that the last read of a
count releases the slot, and leaves the source's slots of its other lanes alone. Where the rules leave a point open it follows the
model's choice: log 35. -/
def Obligations.CountedReads : Prop :=
  ∀ (px : Option Pfx) (d a : BitVec 7) (k : BitVec 7) (g : BitVec 4) (u : Issue) (s : State),
    let i : Instr := .iaddi px d a k g
    Runs i u s → (s.crew u.crew).composes i u.lanes = none → (info i).rows = 1 → (info i).cols = 1 → a ≠ d →
    ∃ t, exec i s = .next t ∧ ∀ l, l < 32 →
      let x := (s.crew u.crew).slot ((s.crew u.crew).win a.toNat) l
      (t.crew u.crew).slot ((s.crew u.crew).win a.toNat) l =
        if l ∈ (s.crew u.crew).active i u.lanes ∧ x.cnt ≠ 0 then { x with cnt := x.cnt - 1, rel := decide (x.cnt = 1) } else x

/-- Computing with values in flight (R87, R91, R95): an integer instruction that composes leaves a form whose value, for every value
that the load may bring, is what the instruction gives on that value, in every lane in which it executes. -/
def Obligations.IntegerComposition : Prop :=
  ∀ (px : Option Pfx) (d a b k : BitVec 7) (g : BitVec 4),
    ComposesAs (.mov px d a g) (fun v => w32 v 0) ∧
    ComposesAs (.iadd px d a b g) (fun v => w32 v 0 + w32 v 1) ∧
    ComposesAs (.isub px d a b g) (fun v => w32 v 0 - w32 v 1) ∧
    ComposesAs (.imul px d a b g) (fun v => w32 v 0 * w32 v 1) ∧
    ComposesAs (.imad px d a b g) (fun v => w32 v 0 * w32 v 1 + w32 v 2) ∧
    ComposesAs (.iaddi px d a k g) (fun v => w32 v 0 + k.signExtend 32) ∧
    ComposesAs (.imuli px d a k g) (fun v => w32 v 0 * k.signExtend 32) ∧
    ComposesAs (.shli px d a k g) (fun v => w32 v 0 <<< k.toNat)

/-- LD that does not defer, LDA and LDK (R143, R146, R147, R29): with every lane translated a request for its lanes enters, counted as a
load, and the threads go on; LDA's acquire begins with it. A load without an active lane completes at once and writes nothing but a
zeroing mask's zeros, a store without one only passes (R38, R139). ST and STL (R93, R145, R146): with every lane translated a request for
its lanes with the data of b enters, counted as a store; STL waits for the crew's earlier accesses. With known data and nothing queued it
starts on its way; behind a queued store, and with the form of a pending register as its data, it stands last in the egress queue. An
address of a load or a store that is not a multiple of the access's bytes traps with code 5 and the lanes at fault, before any effect
(R140, R141). Where the rules leave a point open it follows the model's choice: log 14, 34. -/
def Obligations.LoadsAndStoresEnter : Prop :=
  (∀ (px : Option Pfx) (d a : BitVec 7) (z sc : BitVec 3) (h : BitVec 2) (g : BitVec 4) (u : Issue) (s : State)
     (ts : List (Nat × Nat × Target)),
     (RunsMem (.ld px d a z h g) (s.memTrap (.ld px d a z h g) (sizeBytes z.toNat) .read (fun _ _ => false)) u s →
       (s.crew u.crew).active (.ld px d a z h g) u.lanes ≠ [] →
       (s.crew u.crew).defers (.ld px d a z h g) ((s.crew u.crew).active (.ld px d a z h g) u.lanes) z.toNat = false →
       s.resolveLanes u (laneAddrs (.ld px d a z h g) u s) (sizeBytes z.toNat) .read = .ok ts →
       Enters (.ld px d a z h g) u s .load (some .loads) false (z = 6) ts) ∧
     (RunsMem (.lda px d a z sc g) (s.memTrap (.lda px d a z sc g) (sizeBytes z.toNat) .read (fun _ _ => false)) u s →
       (s.crew u.crew).active (.lda px d a z sc g) u.lanes ≠ [] →
       s.resolveLanes u (laneAddrs (.lda px d a z sc g) u s) (sizeBytes z.toNat) .read = .ok ts →
       EntersAcquire (.lda px d a z sc g) u s .lda false (z = 6) ts sc.toNat) ∧
     (RunsMem (.ldk px d a h g) (s.memTrap (.ldk px d a h g) 4 .read (fun _ _ => false)) u s →
       (s.crew u.crew).active (.ldk px d a h g) u.lanes ≠ [] →
       s.resolveLanes u (laneAddrs (.ldk px d a h g) u s) 4 .read = .ok ts →
       Enters (.ldk px d a h g) u s .ldk (some .loads) false false ts)) ∧
  (∀ (px : Option Pfx) (d a b : BitVec 7) (z sc : BitVec 3) (h : BitVec 2) (g : BitVec 4) (u : Issue) (s : State),
     (∀ (i : Instr) (n : Nat), (i, n) ∈ [((.ld px d a z h g : Instr), sizeBytes z.toNat), (.lda px d a z sc g, sizeBytes z.toNat), (.ldk px d a h g, 4)] →
       RunsMem i (s.memTrap i n .read (fun _ _ => false)) u s → (s.crew u.crew).active i u.lanes = [] → ReadsNothing i u s) ∧
     (∀ (i : Instr), i = .st px z h a b g ∨ i = .stl px z sc a b g →
       RunsMem i (s.memTrap i (sizeBytes z.toNat) .write (narrowKs (sizeBytes z.toNat))) u s → (s.crew u.crew).active i u.lanes = [] →
       ∃ t, exec i s = .next t ∧ Passed i u s t) ∧
     (MayTrap u.crew s → ∀ (i : Instr) (n : Nat), (i, n) ∈ [((.ld px d a z h g : Instr), sizeBytes z.toNat),
         (.lda px d a z sc g, sizeBytes z.toNat), (.ldk px d a h g, 4), (.st px z h a b g, sizeBytes z.toNat),
         (.stl px z sc a b g, sizeBytes z.toNat)] →
       Runs i u s → s.memHeld u.crew i u.lanes = false →
       let odd := ((s.crew u.crew).active i u.lanes).filter (fun l => (s.crew u.crew).laneAddr i l % n != 0)
       odd ≠ [] → ∃ t, exec i s = .next t ∧ Trapped u.crew s t 5 u.pc (maskOf odd).toNat (some u.lanes))) ∧
  (∀ (px : Option Pfx) (z sc : BitVec 3) (h : BitVec 2) (a b : BitVec 7) (g : BitVec 4) (u : Issue) (s : State)
     (ts : List (Nat × Nat × Target)) (i : Instr) (kind : ReqKind),
     let n := sizeBytes z.toNat
     let c := s.crew u.crew
     (i = .st px z h a b g ∧ kind = .store) ∨ (i = .stl px z sc a b g ∧ kind = .stl) →
     RunsMem i (s.memTrap i n .write (narrowKs n)) u s → c.active i u.lanes ≠ [] →
     s.resolveLanes u (laneAddrs i u s) n .write = .ok ts →
     (sizeRegs z ≠ 1 ∨ c.form (c.win b.toNat) = none →
       EntersStore i u s kind (kind = .stl) (z = 6) ts (c.egress != []) none (fun l => c.operand (b.toNat, sizeRegs z) (0, 0) l % 2 ^ (8 * n))) ∧
     (∀ f, sizeRegs z = 1 → c.form (c.win b.toNat) = some f → c.syms.find? (fun y => y.num = f.sym && y.resolved) = none →
       EntersStore i u s kind (kind = .stl) false ts true (some f) (fun l => (f.lane l).offset.toNat % 2 ^ (8 * n))) ∧
     (∀ f y r, sizeRegs z = 1 → c.form (c.win b.toNat) = some f → c.syms.find? (fun y => y.num = f.sym && y.resolved) = some y →
       s.req y.req = some r →
       EntersStore i u s kind (kind = .stl) false ts (c.egress != []) none (fun l => (f.value l (r.word l)).toNat % 2 ^ (8 * n))))

/-- A deferring LD (R89): d becomes a pending form of a symbol of its own, 1·σ + 0 in the active lanes and held elsewhere; the load is
counted and the threads go on at once, lanes without a translation with the others. Where the rules leave a point open it follows the
model's choice: log 34, 49, 103. -/
def Obligations.DeferringLoad : Prop :=
  ∀ (px : Option Pfx) (d a : BitVec 7) (z : BitVec 3) (h : BitVec 2) (g : BitVec 4) (u : Issue) (s : State),
    let i : Instr := .ld px d a z h g
    let c := s.crew u.crew
    RunsMem i (s.memTrap i (sizeBytes z.toNat) .read (fun _ _ => false)) u s → c.active i u.lanes ≠ [] →
    c.defers i (c.active i u.lanes) z.toNat = true →
    s.spaceAhead u.crew (sizeBytes z.toNat) ((c.active i u.lanes).map (c.laneAddr i)) = false →
    ∃ (w : State) (id : Nat) (r : Req) (lanes : List (Nat × Nat × Xlate)), exec i s = .next (w.seekLanes id (lanes.map (fun y => y.2))) ∧
      lanes = (laneAddrs i u s).map (fun y => (y.1, y.2, s.laneTarget u.crew y.2 (sizeBytes z.toNat) .read)) ∧
      Entered i u s w id r (some .loads) ∧ r.kind = .load ∧ r.sym = some c.freeSym ∧
      r.lanes.map (fun x => (x.lane, x.va, x.target)) = lanes.map (fun y => (y.1, y.2.1, match y.2.2 with | .ok t => some t | _ => none)) ∧
      (w.crew u.crew).syms = c.syms ++ [{ num := c.freeSym, req := id, mask := maskOf (c.active i u.lanes) }] ∧
      (∃ f, (w.crew u.crew).form (c.win d.toNat) = some f ∧ f.sym = c.freeSym ∧ f.kind = 0 ∧
        ∀ l, l < 32 → f.lane l =
          if (c.active i u.lanes).contains l then { scale := 1, offset := 0, held := false }
          else if (c.zeroed i u.lanes).contains l then { offset := 0, held := true }
          else { offset := (c.slot (c.win d.toNat) l).val, held := true })

/-- The atomics (R154 to R157): with every lane translated a request for their operation enters, ATOM, ATOMR and ATOM64 counted as loads
and RED as a store; ATOMR waits for the crew's earlier accesses and its acquire begins with it, and a RED behind a queued store stands
last in the egress queue (R93); what the core's L1 holds of the words leaves it as the request starts (R272). RCN and RCNX (R149, R150) enter as loads that wait for the crew's earlier accesses and acquire, at .pkg
scope at least through a window. The deque instructions (R158, R159): DQPUSH enters as a store that waits for the earlier accesses, DQPOP
and DQSTEAL as loads that acquire at .gang. Without an active lane each writes nothing but a zeroing mask's zeros. Where the rules leave a
point open it follows the model's choice: log 37, 67. -/
def Obligations.UpdatesEnter : Prop :=
  (∀ (px : Option Pfx) (d a : BitVec 7) (o : BitVec 4) (sc : BitVec 3) (g : BitVec 4) (u : Issue) (s : State)
     (ts : List (Nat × Nat × Target)),
     (RunsMem (.atom px d a o sc g) (s.memTrap (.atom px d a o sc g) 4 .atomic (s.noAtomic o.toNat)) u s →
       (s.crew u.crew).active (.atom px d a o sc g) u.lanes ≠ [] →
       s.resolveLanes u (laneAddrs (.atom px d a o sc g) u s) 4 .atomic = .ok ts →
       EntersUpdate (.atom px d a o sc g) u s (.atom o.toNat false true false) (some .loads) false ts) ∧
     (RunsMem (.atomr px d a o sc g) (s.memTrap (.atomr px d a o sc g) 4 .atomic (s.noAtomic o.toNat)) u s →
       (s.crew u.crew).active (.atomr px d a o sc g) u.lanes ≠ [] →
       s.resolveLanes u (laneAddrs (.atomr px d a o sc g) u s) 4 .atomic = .ok ts →
       EntersUpdateAcquire (.atomr px d a o sc g) u s (.atom o.toNat false true true) true ts sc.toNat) ∧
     (RunsMem (.red px d a o sc g) (s.memTrap (.red px d a o sc g) 4 .atomic (s.noAtomic o.toNat)) u s →
       (s.crew u.crew).active (.red px d a o sc g) u.lanes ≠ [] →
       s.resolveLanes u (laneAddrs (.red px d a o sc g) u s) 4 .atomic = .ok ts →
       ((s.crew u.crew).egress = [] →
         EntersUpdate (.red px d a o sc g) u s (.atom o.toNat false false false) (some .stores) false ts) ∧
       ((s.crew u.crew).egress ≠ [] →
         ∃ id v r, exec (.red px d a o sc g) s = .next (v.modCrew u.crew (fun c => { c with egress := c.egress ++ [⟨id, none⟩] })) ∧
           Entered (.red px d a o sc g) u s v id r (some .stores) ∧ r.kind = .atom o.toNat false false false ∧ r.queued = true ∧
           r.lanes.map (fun x => (x.lane, x.va, x.target)) = accessesOf false ts)) ∧
     (RunsMem (.atom64 px d a o sc g) (s.memTrap (.atom64 px d a o sc g) 8 .atomic (s.noAtomic o.toNat)) u s →
       (s.crew u.crew).active (.atom64 px d a o sc g) u.lanes ≠ [] →
       s.resolveLanes u (laneAddrs (.atom64 px d a o sc g) u s) 8 .atomic = .ok ts →
       EntersUpdate (.atom64 px d a o sc g) u s (.atom o.toNat true true false) (some .loads) false ts)) ∧
  (∀ (px : Option Pfx) (d a : BitVec 7) (m : BitVec 4) (sc : BitVec 3) (g : BitVec 4) (u : Issue) (s : State)
     (ts : List (Nat × Nat × Target)),
     let at_ : Nat := if ts.any (fun t => t.2.2.window.isSome) then max 3 sc.toNat else sc.toNat
     (RunsMem (.rcn px d a m sc g) (s.memTrap (.rcn px d a m sc g) 4 .atomic noReconcile) u s →
       (s.crew u.crew).active (.rcn px d a m sc g) u.lanes ≠ [] →
       s.resolveLanes u (laneAddrs (.rcn px d a m sc g) u s) 4 .atomic = .ok ts →
       EntersUpdateAcquire (.rcn px d a m sc g) u s (.rcn m.toNat false) true ts at_) ∧
     (RunsMem (.rcnx px d a m sc g) (s.memTrap (.rcnx px d a m sc g) 4 .atomic noReconcile) u s →
       (s.crew u.crew).active (.rcnx px d a m sc g) u.lanes ≠ [] →
       s.resolveLanes u (laneAddrs (.rcnx px d a m sc g) u s) 4 .atomic = .ok ts →
       EntersUpdateAcquire (.rcnx px d a m sc g) u s (.rcn m.toNat true) true ts at_)) ∧
  (∀ (px : Option Pfx) (d a b : BitVec 7) (g : BitVec 4) (u : Issue) (s : State) (ts : List (Nat × Nat × Target)),
     (RunsMem (.dqpush px a b g) (s.memTrap (.dqpush px a b g) 16 .atomic (s.noDeque u.crew)) u s →
       (s.crew u.crew).active (.dqpush px a b g) u.lanes ≠ [] →
       s.resolveLanes u (laneAddrs (.dqpush px a b g) u s) 16 .atomic = .ok ts →
       EntersUpdate (.dqpush px a b g) u s .dqPush (some .stores) true ts) ∧
     (RunsMem (.dqpop px d a g) (s.memTrap (.dqpop px d a g) 16 .atomic (s.noDeque u.crew)) u s →
       (s.crew u.crew).active (.dqpop px d a g) u.lanes ≠ [] →
       s.resolveLanes u (laneAddrs (.dqpop px d a g) u s) 16 .atomic = .ok ts →
       EntersUpdateAcquire (.dqpop px d a g) u s .dqPop false ts 1) ∧
     (RunsMem (.dqsteal px d a g) (s.memTrap (.dqsteal px d a g) 16 .atomic (s.noDeque u.crew)) u s →
       (s.crew u.crew).active (.dqsteal px d a g) u.lanes ≠ [] →
       s.resolveLanes u (laneAddrs (.dqsteal px d a g) u s) 16 .atomic = .ok ts →
       EntersUpdateAcquire (.dqsteal px d a g) u s .dqSteal false ts 1)) ∧
  (∀ (px : Option Pfx) (d a b : BitVec 7) (o m : BitVec 4) (sc : BitVec 3) (g : BitVec 4) (u : Issue) (s : State) (i : Instr)
     (trap : Issue → Option (Trap × Nat)),
     (i = .atom px d a o sc g ∨ i = .atomr px d a o sc g ∨ i = .red px d a o sc g) ∧ trap = s.memTrap i 4 .atomic (s.noAtomic o.toNat) ∨
     i = .atom64 px d a o sc g ∧ trap = s.memTrap i 8 .atomic (s.noAtomic o.toNat) ∨
     (i = .rcn px d a m sc g ∨ i = .rcnx px d a m sc g) ∧ trap = s.memTrap i 4 .atomic noReconcile ∨
     (i = .dqpush px a b g ∨ i = .dqpop px d a g ∨ i = .dqsteal px d a g) ∧ trap = s.memTrap i 16 .atomic (s.noDeque u.crew) →
     RunsMem i trap u s → (s.crew u.crew).active i u.lanes = [] → ReadsNothing i u s)

/-- BINIT, ARV and BEXP (R161, R162): an update with its operand for every active lane's object enters and is not counted, in one request
for the objects of the own core and one for those behind the hub; an ARV that releases waits for the crew's earlier accesses. An object in a
gap of the allocation only sets gap in STATUS. WAITP and TRYW (R164, R165): a lane whose phase has ended gets the pair true where the
object is not broken, one in a gap or past its deadline the pair false, and goes on; another lane waits at the instruction, a TRYW's with
its deadline on the agenda. A true pair drops what the core's L1 holds unregistered of the own memory (R146). Nothing else changes. Where
the rules leave a point open it follows the model's choice: log 13, 38. -/
def Obligations.BarrierInstructions : Prop :=
  (∀ (px : Option Pfx) (a b : BitVec 7) (r : BitVec 1) (sc : BitVec 3) (g : BitVec 4) (u : Issue) (s : State) (i : Instr) (kind : ReqKind)
     (data : Nat → Nat),
     let c := s.crew u.crew
     (i = .binit px a b g ∧ kind = .binit ∧ data = fun l => c.operand (b.toNat, 2) (0, 0) l) ∨
       (i = .arv px a r sc g ∧ kind = .arv (r = 1) ∧ data = fun _ => 0) ∨
       (i = .bexp px a b g ∧ kind = .bexp ∧ data = fun l => c.operand (b.toNat, 1) (0, 0) l) →
     RunsMem i (s.memTrap i 16 .write (s.noObject u.crew)) u s →
     let act := c.active i u.lanes
     let own (t : Nat × Nat × Target) : Bool := nearCore c.core (t.2.1 % 2 ^ 24) = c.core
     let near := (objectsOf i u s).filter own
     let far := (objectsOf i u s).filter (fun t => !own t)
     let one := if near = [] then far else near
     let two := if near = [] then [] else far
     let flags : Word := if act.any (fun l => s.objectAt u.crew (c.laneAddr i l) = some none) then 2 else 0
     (act = [] → ∃ t, exec i s = .next t ∧ Passed i u s t) ∧
     (act ≠ [] → one = [] → ∃ t, exec i s = .next t ∧ OnlyCrew u s t ∧
       Stepped i u s t { c with status := c.status ||| flags, epoch := (t.crew u.crew).epoch, seq := (t.crew u.crew).seq }) ∧
     (one ≠ [] → ∃ id v r1, Entered i u s v id r1 none flags ∧ r1.kind = kind ∧ r1.release = decide (kind = .arv false) ∧
       r1.lanes.map (fun x => (x.lane, x.va, x.target)) = accessesOf false one ∧ r1.lanes.map LaneReq.data = one.map (fun t => data t.1) ∧
       (two = [] → exec i s = .next (v.start id)) ∧
       (two ≠ [] → ∃ id2 w r2, exec i s = .next (w.start id2) ∧ Joined (v.start id) w id2 r2 ∧ r2.crew = u.crew ∧ r2.kind = kind ∧
         r2.release = r1.release ∧ r2.deps = r1.deps ∧
         r2.lanes.map (fun x => (x.lane, x.va, x.target)) = accessesOf false two ∧
         r2.lanes.map LaneReq.data = two.map (fun t => data t.1)))) ∧
  (∀ (px : Option Pfx) (p : BitVec 3) (a b : BitVec 7) (g : BitVec 4) (u : Issue) (s : State) (i : Instr) (dl : Nat → Option Nat),
     (i = .waitp px p a b g ∧ dl = fun _ => none) ∨
       (i = .tryw px p a b g ∧ dl = fun l => some ((s.crew u.crew).operand (b.toNat, 2) (0, 0) l / 2 ^ 32)) →
     RunsMem i (s.memTrap i 16 .read (s.noObject u.crew)) u s →
     let c := s.crew u.crew
     let act := c.active i u.lanes
     let seen (l : Nat) := s.seen u.crew (c.laneAddr i l) (c.operand (b.toNat, 1) (0, 0) l % 2 ^ 16)
     let late (l : Nat) := match dl l with | some d => s.passed (crewSett u.crew) d | none => false
     ∃ t, exec i s = .next t ∧ t = { s with crews := t.crews, cores := t.cores, agenda := t.agenda } ∧
       (∀ k, k ≠ u.crew → t.crew k = s.crew k) ∧
       (let d := t.crew u.crew
        (∀ r l, l < 32 → (d.slot r l).val = (c.slot r l).val) ∧
        CrewKept { c with preds := d.preds, status := c.status ||| (if act.any (fun l => seen l = .gap) then 2 else 0) } d ∧
        (∀ l pr, pr < 12 → (pr ≠ 2 * p.toNat ∧ pr ≠ 2 * p.toNat + 1) ∨ l ∉ act ++ c.zeroed i u.lanes → d.pred l pr = c.pred l pr) ∧
        (∀ l ∈ c.zeroed i u.lanes, d.pred l (2 * p.toNat) = false ∧ d.pred l (2 * p.toNat + 1) = false) ∧
        (∀ l, (l ∉ lanesOf u.lanes → d.thread l = c.thread l) ∧
          (l ∈ lanesOf u.lanes → l ∉ act → (d.thread l).pc = nextPc u i ∧ (d.thread l).st = (c.thread l).st)) ∧
        ∀ l ∈ act,
          (∀ v, seen l = .ended v →
            d.pred l (2 * p.toNat) = v ∧ d.pred l (2 * p.toNat + 1) = !v ∧ (d.thread l).pc = nextPc u i ∧
            (d.thread l).st = (c.thread l).st) ∧
          (seen l = .gap ∨ (seen l = .wait ∧ late l = true) →
            d.pred l (2 * p.toNat) = false ∧ d.pred l (2 * p.toNat + 1) = true ∧ (d.thread l).pc = nextPc u i ∧
            (d.thread l).st = (c.thread l).st) ∧
          (seen l = .wait → late l = false →
            (∀ pr, pr < 12 → d.pred l pr = c.pred l pr) ∧ (d.thread l).pc = u.pc ∧
            (d.thread l).st = .waiting { obj := c.laneAddr i l, phase := c.operand (b.toNat, 1) (0, 0) l % 2 ^ 16, pair := p.toNat,
                                         deadline := dl l, next := nextPc u i } ∧
            ∀ e, dl l = some e →
              (⟨s.cycle + (e % 2 ^ 32 + 2 ^ 32 - s.time (crewSett u.crew) % 2 ^ 32) % 2 ^ 32, 1024 * 62, .trywDeadline u.crew l⟩ : Timed)
                ∈ t.agenda)) ∧
       CoresAs t (fun g => { s.core g with l1 := (t.core g).l1 }) ∧
       (∀ g, g ≠ c.core ∨ (∀ l ∈ act, seen l ≠ .ended true) → (t.core g).l1 = (s.core g).l1) ∧
       ((∃ l ∈ act, seen l = .ended true) → ∀ x ∈ (t.core c.core).l1, x.line / 2 ^ 40 = coreSett c.core →
         ∀ w ∈ x.words, s.registeredBy c.core x.line w.1 = true))

/-- CCTL (R151): after inv no line of the active lanes, and after invall no line of the own sett's memory, holds a word in the core's L1
that the core has not registered; other lines stay; demote makes a line that L1 holds the first to be replaced; evict enters a request for
the lines that the core holds, counted as a store. PREF (R152) enters one that is not counted and writes no register, for the lines in
device and peer memory, and lanes without a translation seek it; a hint of 3 and near addresses fetch nothing. Nothing else changes, and
with nothing to do only the program counter does. FENCE (R153): what later accesses, stores and engine instructions have to wait for is
noted — behind a full fence everything before it, behind an acquiring one the loads before it, of which each then acquires, and the
stores behind a releasing one all accesses before it; without an active lane it passes. Where the rules leave a point open it follows the
model's choice: log 37, 41, 47. -/
def Obligations.CachesAndFences : Prop :=
  (∀ (px : Option Pfx) (a : BitVec 7) (g : BitVec 4) (u : Issue) (s : State),
     let core := (s.crew u.crew).core
     (RunsMem (.cctlInv px a g) (fun _ => none) u s → ∃ t, exec (.cctlInv px a g) s = .next t ∧ CacheOnly (.cctlInv px a g) u s t ∧
       (∀ n ∈ s.linesOf (.cctlInv px a g) u, n.2.1 / 2 ^ 40 = coreSett core →
         ∀ x ∈ (t.core core).l1, x.line = n.2.1 → ∀ w ∈ x.words, s.registeredBy core x.line w.1 = true) ∧
       ∀ x ∈ (s.core core).l1, x.words ≠ [] → (∀ n ∈ s.linesOf (.cctlInv px a g) u, n.2.1 ≠ x.line) → x ∈ (t.core core).l1) ∧
     (RunsMem (.cctlInvall px g) (fun _ => none) u s → ∃ t, exec (.cctlInvall px g) s = .next t ∧ CacheOnly (.cctlInvall px g) u s t ∧
       ((s.crew u.crew).active (.cctlInvall px g) u.lanes = [] → (t.core core).l1 = (s.core core).l1) ∧
       ((s.crew u.crew).active (.cctlInvall px g) u.lanes ≠ [] →
         (∀ x ∈ (t.core core).l1, x.line / 2 ^ 40 = coreSett core → ∀ w ∈ x.words, s.registeredBy core x.line w.1 = true) ∧
         ∀ x ∈ (s.core core).l1, x.words ≠ [] → x.line / 2 ^ 40 ≠ coreSett core → x ∈ (t.core core).l1)) ∧
     (RunsMem (.cctlDemote px a g) (fun _ => none) u s →
       ∃ t, exec (.cctlDemote px a g) s = .next t ∧ CacheOnly (.cctlDemote px a g) u s t ∧
         (∀ n, (t.core core).line n = (s.core core).line n) ∧
         (s.linesOf (.cctlDemote px a g) u = [] → (t.core core).l1 = (s.core core).l1) ∧
         ∀ n ls x, s.linesOf (.cctlDemote px a g) u = ls ++ [n] → (s.core core).line n.2.1 = some x →
           (t.core core).l1.getLast? = some x)) ∧
  (∀ (px : Option Pfx) (a : BitVec 7) (h : BitVec 2) (g : BitVec 4) (u : Issue) (s : State),
     let core := (s.crew u.crew).core
     (RunsMem (.cctlEvict px a g) (fun _ => none) u s →
       let ls := (s.linesOf (.cctlEvict px a g) u).filter (fun n => ((s.core core).line n.2.1).isSome)
       (ls ≠ [] → Enters (.cctlEvict px a g) u s .evict (some .stores) false false
         (ls.map (fun n => (n.1, (s.crew u.crew).laneAddr (.cctlEvict px a g) n.1, n.2.2)))) ∧
       (ls = [] → ∃ t, exec (.cctlEvict px a g) s = .next t ∧ CacheOnly (.cctlEvict px a g) u s t ∧ (t.core core).l1 = (s.core core).l1)) ∧
     (RunsMem (.pref px a h g) (fun _ => none) u s →
       let fetched (x : Xlate) : Bool := match x with
         | .ok t => (match t.place with | .hbm _ _ => true | .remote _ _ => true | _ => false)
         | _ => true
       let ls := ((laneAddrs (.pref px a h g) u s).filter (fun y => !isNear y.2)).map (fun y => (y.1, y.2, s.translateFor u.crew y.2 1 .read))
       let ls := ls.filter (fun y => fetched y.2.2)
       (h = 3 ∨ ls = [] → ∃ t, exec (.pref px a h g) s = .next t ∧ CacheOnly (.pref px a h g) u s t ∧
         (t.core core).l1 = (s.core core).l1) ∧
       (h ≠ 3 → ls ≠ [] → ∃ w id r, exec (.pref px a h g) s = .next (w.seekLanes id (ls.map (fun y => y.2))) ∧
         Entered (.pref px a h g) u s w id r none ∧ r.kind = .pref ∧ r.hint = h.toNat ∧
         r.lanes.map (fun x => (x.lane, x.va, x.target)) = ls.map (fun y => (y.1, y.2.1, match y.2.2 with | .ok t => some t | _ => none))))) ∧
  (∀ (px : Option Pfx) (o : BitVec 2) (sc : BitVec 3) (g : BitVec 4) (u : Issue) (s : State),
     RunsMem (.fence px o sc g) (fun _ => none) u s →
     ((s.crew u.crew).active (.fence px o sc g) u.lanes = [] →
       ∃ t, exec (.fence px o sc g) s = .next t ∧ Passed (.fence px o sc g) u s t) ∧
     ((s.crew u.crew).active (.fence px o sc g) u.lanes ≠ [] →
       ∃ v w : State, Passed (.fence px o sc g) u s v ∧ exec (.fence px o sc g) s = .next (w.settleFences u.crew) ∧
         w = { v with crews := w.crews, reqs := w.reqs } ∧ (∀ k, k ≠ u.crew → w.crew k = v.crew k) ∧
         (let c := v.crew u.crew
          let d := w.crew u.crew
          let early := (v.releaseDeps u.crew).map (fun n => 2 * n + if 3 ≤ sc.toNat then 1 else 0)
          let loads := ((v.crewReqs u.crew).filter (fun x => x.2.kind.returns)).map Prod.fst
          d = { c with epoch := d.epoch, seq := d.seq, frontier := d.frontier, held := if o = 2 then c.held else [],
                       fenceStores := if o = 1 then c.fenceStores else c.fenceStores ++ early,
                       fenceAll := if o = 0 then c.fenceAll ++ early else c.fenceAll,
                       fenceLoads := if o = 2 then c.fenceLoads else c.fenceLoads ++ loads.map (2 * ·),
                       fenceSys := c.fenceSys || (o != 1 && decide (4 ≤ sc.toNat)),
                       selfInval := c.selfInval || (o != 2 && decide (sc.toNat ≠ 0)) } ∧
          (o = 1 → d.epoch = c.epoch ∧ d.seq = c.seq) ∧
          d.frontier = (if o = 2 then c.frontier else c.held.foldl (fun f p => f.add p) c.frontier) ∧
          ∀ j, w.req j = if o ≠ 2 ∧ j ∈ loads then (v.req j).map (fun r => { r with acquire := true }) else v.req j)))

/-- COPY and PUT (R167, R170, R172): with every active lane's descriptor read and good, the copies counter rises by one for all of them, a
copy of each lane's descriptor stands in the engine with its barrier or counter, starts when the slowest descriptor has been read, and the
crew's next instruction waits as long; STATUS takes the sticky bits that the reading met, and nothing else changes. A bad descriptor traps with
its lane and reason. PUBL (R173) enters as a release with one lane for each distinct buffer, counted as a copy. Without an active lane
each passes. Where the rules leave a point open it follows the model's choice: log 54. -/
def Obligations.CopiesEnter : Prop :=
  (∀ (px : Option Pfx) (a b : BitVec 7) (g : BitVec 4) (u : Issue) (s : State) (i : Instr) (put : Bool) (ds lat : Nat → Nat) (fl : Nat → NearFlags),
     (i = .copy px a b g ∧ put = false) ∨ (i = .put px a b g ∧ put = true) →
     RunsMem i (s.copyTrap i put) u s →
     let c := s.crew u.crew
     let act := c.active i u.lanes
     (act = [] → ∃ t, exec i s = .next t ∧ Passed i u s t) ∧
     ((∀ l ∈ act, s.readDesc u.crew (c.laneAddr i l) = .ok (ds l) (lat l) (fl l) false) →
       (∀ l why ls, act = l :: ls → badDesc (ds l) put = some why → MayTrap u.crew s →
         ∃ t, exec i s = .next t ∧ (t.crew u.crew).handler = true ∧ (t.crew u.crew).trapCode = 7 ∧ (t.crew u.crew).trapPc = u.pc ∧
           (t.crew u.crew).trapInfo = BitVec.ofNat 32 (l + 256 * why) ∧ (t.crew u.crew).copies = c.copies ∧ t.copies = s.copies) ∧
       (act ≠ [] → (∀ l ∈ act, badDesc (ds l) put = none ∧ c.otherAddr i l < 2 ^ 56) →
         let late := (act.map lat).foldl max 0
         let ids := (List.range act.length).map (s.nextId + 1 + ·)
         let flags := (act.map fl).foldl NearFlags.or {}
         ∃ t, exec i s = .next t ∧
           Stepped i u s t { c with copies := c.copies + 1, nextAt := s.cycle + late, status := (c.noteFlags flags).status,
                                    epoch := (t.crew u.crew).epoch, seq := (t.crew u.crew).seq } ∧
           CoresAs t (fun k => { s.core k with copies := if k = c.core then (s.core k).copies ++ ids else (s.core k).copies }) ∧
           t = { s with crews := t.crews, cores := t.cores, copies := t.copies, groups := t.groups, agenda := t.agenda,
                        nextId := s.nextId + 1 + act.length } ∧
           (∀ j, Tab.get none t.groups j = if j = s.nextId then some { crew := u.crew, left := act.length } else Tab.get none s.groups j) ∧
           (∀ j, j ∉ ids → t.copy j = s.copy j) ∧
           ∀ e ∈ act.zipIdx, (⟨s.cycle + late, 1024 * 33, .copyStart (s.nextId + 1 + e.2)⟩ : Timed) ∈ t.agenda ∧
             ∃ y, t.copy (s.nextId + 1 + e.2) = some y ∧
               y = { crew := u.crew, core := c.core, pc := u.pc, lane := e.1, group := s.nextId, desc := ds e.1,
                     barrier := c.operand (b.toNat, 2) (0, 0) e.1, put := put, stamp := y.stamp, frontier := c.frontier }))) ∧
  (∀ (px : Option Pfx) (a : BitVec 7) (g : BitVec 4) (u : Issue) (s : State) (ts : List (Nat × Nat × Target)),
     RunsMem (.publ px a g) (s.memTrap (.publ px a g) 1 .read noShadow) u s →
     ((s.crew u.crew).active (.publ px a g) u.lanes = [] → ∃ t, exec (.publ px a g) s = .next t ∧ Passed (.publ px a g) u s t) ∧
     ((s.crew u.crew).active (.publ px a g) u.lanes ≠ [] →
       s.resolveLanes u (laneAddrs (.publ px a g) u s) 1 .read = .ok ts →
       ∃ bufs, Enters (.publ px a g) u s .publ (some .copies) true false bufs ∧ bufs.Sublist ts ∧
         (bufs.map (fun t => t.2.2.buf)).Nodup ∧ ∀ t ∈ ts, ∃ b ∈ bufs, b.2.2.buf = t.2.2.buf))

/-- COLL (R174, R380) enters the engine's lowest free slot with the lowest active lane's descriptor and what had come early for it, its
handle — attempt and slot — stands in d of the active lanes and 0 where a mask zeroes, the copies counter rises, and its contribution is on
the agenda; nothing else changes. SYS.cabort (R184) ends a running collective of the current attempt by abort and tokens, and passes where
its handle names none. Without an active lane COLL writes nothing but the zeros. Where the rules leave a point open it follows the model's
choice: log 56, 58. -/
def Obligations.CollectivesEnter : Prop :=
  ∀ (px : Option Pfx) (d a : BitVec 7) (g : BitVec 4) (u : Issue) (s : State),
    let c := s.crew u.crew
    let q := crewSett u.crew
    (RunsMem (.coll px d a g) (fun _ => none) u s →
      let act := c.active (.coll px d a g) u.lanes
      (act = [] → ReadsNothing (.coll px d a g) u s) ∧
      ∀ l ls v lat fl, act = l :: ls →
        s.readDesc u.crew (c.laneAddr (.coll px d a g) l) = .ok v lat fl false → s.badColl q v = none →
        let slot := (s.sett q).freeSlot
        let e := s.group q (lGroup v)
        let handle := e.attempt * 65536 + slot
        ∃ t y, exec (.coll px d a g) s = .next t ∧
          Stepped (.coll px d a g) u s t
            { c with copies := c.copies + 1, nextAt := s.cycle + lat, colls := c.colls ++ [handle], status := (c.noteFlags fl).status,
                     epoch := (t.crew u.crew).epoch, seq := (t.crew u.crew).seq } ∧
          CoresAs t s.core ∧
          (∀ j ∈ act, (t.crew u.crew).slot (c.win d.toNat) j =
            { val := BitVec.ofNat 32 handle, cnt := BitVec.ofNat 2 (info (.coll px d a g)).cnt, rel := false }) ∧
          (∀ j ∈ c.zeroed (.coll px d a g) u.lanes, (t.crew u.crew).slot (c.win d.toNat) j =
            { val := 0, cnt := BitVec.ofNat 2 (info (.coll px d a g)).cnt, rel := false }) ∧
          y = { crew := u.crew, group := lGroup v, attempt := e.attempt, op := lOp v, type := lType v, red := lRed v, send := lSend v,
                recv := lRecv v, count := lCount v, doneCtr := lDone v, copyGroup := s.nextId, got := e.waiting e.attempt e.issued,
                seq := e.issued, pc := u.pc, lane := l, stamp := y.stamp, frontier := c.frontier } ∧
          (∀ p, t.sett p = if p = q then { s.sett p with colls := Tab.set none (s.sett p).colls slot (some y), groups := (t.sett p).groups }
                           else s.sett p) ∧
          (∀ n, t.group q n = if n = lGroup v
            then { e with issued := e.issued + 1, held := e.held.filter (fun h => !(h.1 = e.attempt && h.2.1 = e.issued)) }
            else s.group q n) ∧
          (∀ j, Tab.get none t.groups j = if j = s.nextId then some { crew := u.crew, left := 1 } else Tab.get none s.groups j) ∧
          (⟨s.cycle + 331, 1024 * 35, .collPacketReceive q (lGroup v) e.attempt e.issued e.me 0⟩ : Timed) ∈ t.agenda ∧
          t = { s with crews := t.crews, cores := t.cores, setts := t.setts, groups := t.groups, agenda := t.agenda, nextId := s.nextId + 1 }) ∧
    (Runs (.sysCabort px a g) u s → ∃ v, OnlyCrew u s v ∧ Stepped (.sysCabort px a g) u s v c ∧
      exec (.sysCabort px a g) s = .next
        (match c.active (.sysCabort px a g) u.lanes with
          | [] => v
          | l :: _ =>
            match s.currentColl q (c.slot (c.win a.toNat) l).val.toNat with
            | none => v
            | some (grp, att) => (v.abortAttempt q grp att).sendTokens q grp att))

/-- The matrix instructions (R214, R217, R219, R221, R223, R226, R234): an operation with the operand of the lowest active lane enters the
core's queue behind those that stand there, the tiles counter rises, the scoreboard holds its parameter block, an AMODE may start from the
next cycle on and an MMV or MMG enters the queues of the cluster's other cores 16 cycles on; nothing else changes. Without an active lane
each passes. Where the rules leave a point open it follows the model's choice: log 62, 64. -/
def Obligations.MatrixEnters : Prop :=
  ∀ (px : Option Pfx) (a : BitVec 7) (g : BitVec 4) (u : Issue) (s : State) (i : Instr) (form : Nat) (compute : Bool),
    (i, form, compute) ∈ [((.mload px a g : Instr), 1, false), (.mmv px a g, 2, false), (.mmg px a g, 3, false), (.acc px a g, 4, false),
      (.amodeStorage px a g, 5, false), (.amodeCompute px a g, 5, true)] →
    RunsMem i (fun _ => none) u s →
    let c := s.crew u.crew
    (c.active i u.lanes = [] → ∃ t, exec i s = .next t ∧ Passed i u s t) ∧
    (∀ l ls, c.active i u.lanes = l :: ls →
      ∃ t o, exec i s = .next t ∧
        Stepped i u s t { c with tiles := c.tiles + 1, epoch := (t.crew u.crew).epoch, seq := (t.crew u.crew).seq } ∧
        (form ≠ 4 → (t.crew u.crew).epoch = c.epoch ∧ (t.crew u.crew).seq = c.seq) ∧
        o = { id := s.nextId, crew := u.crew, lane := l, pc := u.pc, form := form, addr := c.laneAddr i l, compute := compute, home := c.core,
              block := crewBlock u.crew, core := c.core, issued := s.cycle, stamp := o.stamp, frontier := c.frontier } ∧
        CoresAs t (fun k => if k ≠ c.core then s.core k else { s.core k with
          seq := (s.core k).seq ++ [o]
          score := (s.core k).score ++
            (if form = 5 then [] else [⟨s.nextId, c.laneAddr i l, c.laneAddr i l + 127, crewRec u.crew⟩]) }) ∧
        (form = 5 → (⟨s.cycle + 1, 1024 * 38, .seqStart c.core⟩ : Timed) ∈ t.agenda) ∧
        (form = 2 ∨ form = 3 → ∀ k, k < 4 → k ≠ c.core % 4 →
          (⟨s.cycle + 16, 1024 * 36, .multicastEnqueue (4 * (c.core / 4) + k) s.nextId⟩ : Timed) ∈ t.agenda) ∧
        (form ≠ 5 → (s.core c.core).seq = [] → ∃ n, (⟨s.cycle + n, 1024 * 34, .seqBlockRead c.core s.nextId⟩ : Timed) ∈ t.agenda ∧
          (isNear (c.laneAddr i l) = true → n = 40)) ∧
        t = { s with crews := t.crews, cores := t.cores, agenda := t.agenda, nextId := s.nextId + 1 })

/-- LEASE.spill, fill and drop (R179): n = N(A) of the lowest active lane registers from d on. A spill moves them into a lease, releases
their slots and counts as a store; a fill of a placed lease counts as a load and puts the registers in flight; a drop ends the lease; while
a lease is on its way, fill and drop do not issue. A count of 0 or above 32, a spill that finds no free lease, one from the same register, or
no place for the contents, and a fill or drop of no lease take the lease trap; without an active lane each passes. LEASE_PLACED,
LEASE_FILL_DATA, LEASE_REVOKE (R251, R253): a spill's data arrives at the lender and its counter falls; a fill from a lender returns
contents and counts, and ends the lease; a revoked lease moves to the backing area. Where the rules leave a point open it follows the
model's choice: log 68, 69, 70. -/
def Obligations.Leases : Prop :=
  (∀ (px : Option Pfx) (d a : BitVec 7) (g : BitVec 4) (u : Issue) (s : State) (i : Instr),
     i = .leaseSpill px d a g ∨ i = .leaseFill px d a g ∨ i = .leaseDrop px d a g →
     Runs i u s → s.memHeld u.crew i u.lanes = false → (s.crew u.crew).active i u.lanes = [] → ∃ t, exec i s = .next t ∧ Passed i u s t) ∧
  (∀ (px : Option Pfx) (d a : BitVec 7) (g : BitVec 4) (u : Issue) (s : State) (l : Nat) (ls : List Nat),
     let c := s.crew u.crew
     let n := (c.slot (c.win a.toNat) l).val.toNat
     let first := c.win d.toNat
     let ready (i : Instr) := Runs i u s ∧ s.memHeld u.crew i u.lanes = false ∧ c.active i u.lanes = l :: ls
     let room := c.leases.length < 4 ∧ (∀ x ∈ c.leases, ∀ y, x.2 = some y → y.first ≠ first) ∧
       ((s.lenderFor c.core).isSome = true ∨ (s.record (blockSett c.block) (blockRec c.block)).spill ≠ 0)
     let bad := n = 0 ∨ 32 < n
     let traps (i : Instr) := ∃ t, exec i s = .next t ∧ Trapped u.crew s t 10 u.pc 0 (some u.lanes)
     (ready (.leaseSpill px d a g) → MayTrap u.crew s → bad ∨ ¬ room → traps (.leaseSpill px d a g)) ∧
     (ready (.leaseFill px d a g) → MayTrap u.crew s →
       bad ∨ (∀ j y, c.leaseOf first n = some (j, y) → y.place = .lost) → traps (.leaseFill px d a g)) ∧
     (ready (.leaseDrop px d a g) → MayTrap u.crew s → bad ∨ c.leaseOf first n = none → traps (.leaseDrop px d a g)) ∧
     (ready (.leaseSpill px d a g) → ¬ bad → room →
       ∃ t j y, exec (.leaseSpill px d a g) s = .next t ∧ j < 4 ∧ c.lease j = none ∧
         Advanced (.leaseSpill px d a g) u c (t.crew u.crew) ∧
         CrewKept { c with leases := Tab.set none c.leases j (some y), stores := c.stores + 1 } (t.crew u.crew) ∧
         (∀ k, k ≠ u.crew → t.crew k = s.crew k) ∧
         y.first = first ∧ y.count = n ∧ y.place = .moving ∧ y.lender = s.lenderFor c.core ∧ y.pc = u.pc ∧
         (∀ k h, k < n → h < 32 → (Tab.get {} y.slots (32 * k + h)).val = (c.slot (first + k) h).val ∧
           ((t.crew u.crew).slot (first + k) h).rel = true) ∧
         (∀ r h, h < 32 → ((t.crew u.crew).slot r h).val = (c.slot r h).val) ∧
         CoresAs t (fun k => { s.core k with
           lent := if s.lenderFor c.core = some k then (s.core k).lent ++ [(u.crew, j)] else (s.core k).lent }) ∧
         (⟨s.cycle + ((if (s.lenderFor c.core).isSome then 48 else 676) + 16 * ((136 * n + 255) / 256)), 1024 * 48,
           .leasePlaced u.crew j⟩ : Timed) ∈ t.agenda ∧
         t = { s with crews := t.crews, cores := t.cores, agenda := t.agenda }) ∧
     (∀ j y, c.leaseOf first n = some (j, y) → ¬ bad →
       (y.place = .moving ∨ y.place = .filling →
         (ready (.leaseFill px d a g) → exec (.leaseFill px d a g) s = .next s) ∧
         (ready (.leaseDrop px d a g) → exec (.leaseDrop px d a g) s = .next s)) ∧
       (y.place ≠ .moving → y.place ≠ .filling →
         (ready (.leaseFill px d a g) → y.place ≠ .lost →
           ∃ t, exec (.leaseFill px d a g) s = .next t ∧
             Stepped (.leaseFill px d a g) u s t { c with
               leases := Tab.set none c.leases j (some { y with place := .filling }), loads := c.loads + 1,
               inFlight := c.inFlight ++ (List.range n).map (first + ·) } ∧
             CoresAs t s.core ∧
             (⟨s.cycle + ((match y.place with | .lender _ => 48 | _ => 676) + 16 * ((136 * n + 255) / 256)), 1024 * 48,
               .leaseFillData u.crew j⟩ : Timed) ∈ t.agenda ∧
             t = { s with crews := t.crews, cores := t.cores, agenda := t.agenda }) ∧
         (ready (.leaseDrop px d a g) →
           ∃ t, exec (.leaseDrop px d a g) s = .next t ∧
             Stepped (.leaseDrop px d a g) u s t { c with leases := Tab.set none c.leases j none } ∧
             CoresAs t (fun k => { s.core k with
               lent := if y.lender = some k then (s.core k).lent.filter (fun x => x != (u.crew, j)) else (s.core k).lent }) ∧
             t = { s with crews := t.crews, cores := t.cores })))) ∧
  (∀ (s : State) (k i : Nat) (y : Lease), (s.crew k).lease i = some y →
     (∀ g, y.place = .moving → y.lender = some g →
       (∃ t, exec (.leasePlaced k i) s = .next t ∧ (t.crew k).lease i = some { y with place := .lender g } ∧
         (t.crew k).stores = (s.crew k).stores - 1 ∧ (t.hbm = s.hbm ∧ t.hostMem = s.hostMem) ∧ (t.crew k).regs = (s.crew k).regs) ∧
       (∃ t, exec (.leaseRevoke k i) s = .next t ∧ (t.crew k).lease i = some { y with place := .moving, lender := none, revoked := true } ∧
         (k, i) ∉ (t.core g).lent ∧ t = { s with crews := t.crews, cores := t.cores })) ∧
     (∀ g, y.place = .filling → y.lender = some g →
       ∃ t, exec (.leaseFillData k i) s = .next t ∧ (t.crew k).lease i = none ∧ (t.crew k).loads = (s.crew k).loads - 1 ∧
         (k, i) ∉ (t.core g).lent ∧
         (∀ j l, j < y.count → l < 32 → (t.crew k).slot (y.first + j) l = Tab.get {} y.slots (32 * j + l)) ∧
         (∀ r l, l < 32 → (r < y.first ∨ y.first + y.count ≤ r) → (t.crew k).slot r l = (s.crew k).slot r l) ∧
         (∀ r ∈ (t.crew k).inFlight, r < y.first ∨ y.first + y.count ≤ r) ∧ (t.hbm = s.hbm ∧ t.hostMem = s.hostMem)) ∧
     (∀ g v s1, y.place = .lender g → s.backing k i y true = .ok v s1 →
       ∃ t, exec (.leaseRevoke k i) s = .next t ∧ (t.crew k).lease i = some { y with place := .backing, lender := none, revoked := true } ∧
         t.hbm = s1.hbm ∧ t.hostMem = s1.hostMem))

/-- SYS.post (R182): a request that reads the active lanes' cards enters as a release, counted as a store, and the cards take places in
the post buffer. SYS.tlbinv (R183): in a handler, or in a region with translation control, the request is counted as a store, mstat's
result is cleared and every active lane's invalidation is on its way to the setts that the scope names, and to the host behind them;
nothing else changes; elsewhere the instruction is illegal with reason 4. Without an active lane each passes. Where the rules leave a point
open it follows the model's choice: log 24, 50, 51. -/
def Obligations.PostAndInvalidate : Prop :=
  (∀ (px : Option Pfx) (a : BitVec 7) (g : BitVec 4) (u : Issue) (s : State) (ts : List (Nat × Nat × Target)),
     RunsMem (.sysPost px a g) (s.memTrap (.sysPost px a g) 64 .read (fun _ _ => false)) u s →
     ((s.crew u.crew).active (.sysPost px a g) u.lanes = [] →
       ∃ t, exec (.sysPost px a g) s = .next t ∧ Passed (.sysPost px a g) u s t) ∧
     ((s.crew u.crew).active (.sysPost px a g) u.lanes ≠ [] →
       s.resolveLanes u (laneAddrs (.sysPost px a g) u s) 64 .read = .ok ts →
       ∃ id v r, exec (.sysPost px a g) s = .next (v.start id) ∧ Entered (.sysPost px a g) u s v id r (some .stores) ∧ r.kind = .post ∧
         r.release = true ∧ r.lanes.map (fun x => (x.lane, x.va, x.target)) = accessesOf false ts ∧
         (v.core (s.crew u.crew).core).post = (s.core (s.crew u.crew).core).post ++
           ((s.crew u.crew).active (.sysPost px a g) u.lanes).map
             (fun l => { crew := u.crew, pc := u.pc, lane := l, req := id, card := none }))) ∧
  (∀ (px : Option Pfx) (sc : BitVec 3) (a : BitVec 7) (g : BitVec 4) (u : Issue) (s : State),
     let i : Instr := .sysTlbinv px sc a g
     let c := s.crew u.crew
     let own := crewSett u.crew
     let allowed := c.handler || (s.record own (crewRec u.crew)).xlate
     let act := c.active i u.lanes
     let setts := if sc = 2 then [own] else if sc = 3 then List.range 8 else List.range 9
     (Runs i u s → act = [] → ∃ t, exec i s = .next t ∧ Passed i u s t) ∧
     (Runs i u s → act ≠ [] → (∀ l ∈ act, c.laneAddr i l < 2 ^ 56) →
       ∃ t r, exec i s = .next t ∧
         Stepped i u s t { c with stores := c.stores + 1, tlbinv := 0, lastInv := s.nextId + 1 } ∧ CoresAs t s.core ∧
         t.req s.nextId = some r ∧ r.kind = .tlbinv ∧ r.crew = u.crew ∧ r.scope = sc.toNat ∧
         r.lanes.map (fun x => (x.lane, x.va, x.done)) = act.map (fun l => (l, c.laneAddr i l, false)) ∧
         (∀ j, j ≠ s.nextId → t.req j = s.req j) ∧
         (∀ e ∈ act.zipIdx, Tab.get none t.invs (s.nextId + 1 + e.2) = some
             { req := s.nextId, crew := u.crew, va := c.laneAddr i e.1, scope := sc.toNat, left := setts, lane := e.1 } ∧
           ∀ q ∈ setts, (⟨s.cycle + (256 + fabric 16 + (if q = own ∨ q = 8 then 0 else fabric 40)), 1024 * 42,
             .tlbinvApply (s.nextId + 1 + e.2) q⟩ : Timed) ∈ t.agenda) ∧
         t = { s with crews := t.crews, cores := t.cores, reqs := t.reqs, invs := t.invs, agenda := t.agenda,
                      nextId := s.nextId + 1 + act.length }) ∧
     (s.cur = some u → allowed = false → illegalOf i = none → MayTrap u.crew s →
       ∃ t, exec i s = .next t ∧ Trapped u.crew s t 1 u.pc 4 (some u.lanes)))

/-- Events of threads and of the active set: promotion (R21), residency and filling (R18), the end of a wait (R164, R165, R259) and of a
sleep (R180); a TRYW's deadline gives what its object shows then. Gating and the residency timer (R261 to R263, R431): the gates close after 2^12 and 2^20 idle cycles, a gated core wakes
in 4 or 1,700, and the thresholds report a waiting gang once, the second one killing it. Where the rules leave a point open it follows
the model's choice: log 4, 99. -/
def Obligations.ThreadsAndGating : Prop :=
  (∀ (s : State) (k l core e : Nat),
     (((s.crew k).thread l).wait = 63 →
       ∃ t, exec (.pathPromotion k l) s = .next t ∧ (t.crew k).thread l = { (s.crew k).thread l with wait := 64 } ∧
         (∀ j, j ≠ l → (t.crew k).thread j = (s.crew k).thread j) ∧ t = { s with crews := t.crews }) ∧
     (∀ a, (s.core core).entry e = some a → (s.crew a.crew).core = core → (s.core core).entryOf a.crew = some e →
       a.entered + 4096 ≤ s.cycle → s.readyOutside core ≠ [] →
       ∃ t, exec (.activeSetResidencyExpiry core e) s = .next t ∧ (t.core core).entry e = none ∧ (t.crew a.crew).rcache = [] ∧
         t.crew a.crew = { s.crew a.crew with rcache := [] } ∧ (∀ j, j ≠ a.crew → t.crew j = s.crew j) ∧
         t = { s with crews := t.crews, cores := t.cores, agenda := t.agenda }) ∧
     (∀ n, (s.core core).entry e = none → Tab.get 0 (s.core core).entryBusy e ≤ s.cycle → e ≤ 15 → s.nextCrew core = some n →
       ∃ t, exec (.activeSetFill core e) s = .next t ∧ (t.core core).entry e = some ⟨n, s.cycle⟩ ∧ t = { s with cores := t.cores }) ∧
     ((s.crew k).stopped = false →
       (∀ w, ((s.crew k).thread l).st = .waiting w → w.pair < 6 →
         (∀ v, s.seen k w.obj w.phase = .ended v → ∃ t, exec (.waiterResume k l) s = .next t ∧ ResumedPair k l s t w v) ∧
         (s.seen k w.obj w.phase = .gap → ∃ t, exec (.waiterResume k l) s = .next t ∧ ResumedPair k l s t w false) ∧
         (∀ d, w.deadline = some d → s.passed (crewSett k) d = true →
           ∃ t, exec (.trywDeadline k l) s = .next t ∧ ResumedPair k l s t w (s.seen k w.obj w.phase = .ended true))) ∧
       (∀ until_ n next, ((s.crew k).thread l).st = .sleeping until_ n next → until_ ≤ s.cycle →
         ∃ t, exec (.sleepExpiry k l) s = .next t ∧ Resumed k l s t next ∧ (t.crew k).preds = (s.crew k).preds))) ∧
  (∀ (s : State) (g : Nat),
     ((s.core g).gate = 0 → 2 ^ 12 ≤ s.idleTime g →
       ∃ t, exec (.idleClockGate g) s = .next t ∧ (t.core g).gate = 1 ∧ t = { s with cores := t.cores }) ∧
     (2 ^ 20 ≤ s.idleTime g → (s.core g).gate ≠ 2 → (s.core g).copies = [] → (s.core g).seq = [] →
       ∃ t, exec (.idlePowerGate g) s = .next t ∧ (t.core g).gate = 2 ∧ (t.hbm = s.hbm ∧ t.hostMem = s.hostMem)) ∧
     ((s.core g).gate = 3 → ∃ t, exec (.coreWake g) s = .next t ∧ (t.core g).gate = 0 ∧ t = { s with cores := t.cores }) ∧
     ((s.core g).gate = 2 → ∃ t, exec (.deadlinePreWake g) s = .next t ∧ (t.core g).gate = 3 ∧
       (⟨s.cycle + 1700, 1024 * 3, .coreWake g⟩ : Timed) ∈ t.agenda) ∧
     (∀ w, s.waitingGangs g = [w] → crewSett w.1 = coreSett g →
       let x := s.record (crewSett w.1) (crewRec w.1)
       let n := (s.sett (coreSett g)).reportSeq
       let word (kind : Nat) := reportWord
         ({ kind := kind, addr := w.2.1, gangRec := crewRec w.1, block := blockId (crewBlock w.1), crew := w.1 % 32, core := g,
            phase := w.2.2, unit := 1 + (Config.reportUnit (coreSett g) n).toNat % 10 } : ReportInfo) (s.time (coreSett g)) n
       (2 ^ x.th1 ≤ s.idleTime g → (crewRec w.1, 1) ∉ (s.core g).reported →
         ∃ t, exec (.longWaitThreshold g) s = .next t ∧ t.hbmRead (coreSett g) (reportRing + 64 * (n % 4096)) 64 = word 7 % 256 ^ 64 ∧
           (t.sett (coreSett g)).reportSeq = n + 1 ∧ 2 ∈ (t.sett (coreSett g)).raised ∧ (crewRec w.1, 1) ∈ (t.core g).reported ∧
           t.crews = s.crews) ∧
       (2 ^ x.th2 ≤ s.idleTime g → (crewRec w.1, 2) ∉ (s.core g).reported →
         ∃ v : State, exec (.hangSuspectThreshold g) s = .next (v.killGang (coreSett g) (crewRec w.1)) ∧
           v.hbmRead (coreSett g) (reportRing + 64 * (n % 4096)) 64 = word 8 % 256 ^ 64 ∧ v.crews = s.crews)))

/-- LOAD_DATA_RETURN (R29, R143): with every lane's data there, the destination registers take the values with the load's count — each
half of a 128-bit load its two registers (R148) —, the loads counter falls, STATUS takes the sticky bits that the load met, and the request
ends; other slots, predicates and memory stay. SYMBOL_RESOLVE (R95 to R97, R29), with nothing in the egress queue: the load leaves its
counter and the symbol is resolved; while a thread may still issue in the cycle the forms stand, so that it reads them as they were. The
next event writes every completed form of the symbol into its register, other than in released lanes, and takes it from the table. Where the
rules leave a point open it follows the model's choice: log 18, 19, 41. -/
def Obligations.LoadsEnd : Prop :=
  (∀ (s : State) (id : Nat) (r : Req), s.req id = some r → (r.kind = .load ∨ r.kind = .lda) → r.sym = none → r.phase = 1 →
     r.awaiting = false → (∀ x ∈ r.lanes, x.done = true ∧ x.due ≤ s.cycle ∧ x.lane < 32 ∧ x.half ≤ 1 ∧ (r.width ≠ 4 → x.half = 0)) →
     (r.lanes.map (fun x => (x.lane, x.half))).Nodup → s.readsPoison r = none →
     let c := s.crew r.crew
     ∃ t, exec (.loadDataReturn id) s = .next t ∧ t.req id = none ∧ (∀ j, j ≠ id → t.req j = s.req j) ∧
       (let d := t.crew r.crew
        d = { c with regs := d.regs, inFlight := d.inFlight, loads := c.loads - 1, status := (c.noteFlags r.flags).status,
                     frontier := d.frontier, held := d.held, fenceStores := d.fenceStores, fenceAll := d.fenceAll,
                     fenceLoads := d.fenceLoads, fenceSys := d.fenceSys, fenceUntil := d.fenceUntil, selfInval := d.selfInval } ∧
        (∀ x ∈ r.lanes, ∀ j, j < (if r.width = 4 then 2 else r.width) → d.slot (r.dst + 2 * x.half + j) x.lane =
          { val := resWord (loadValue r.zfield x.value) j, cnt := BitVec.ofNat 2 r.cnt, rel := false }) ∧
        (∀ g l, l < 32 → (g < r.dst ∨ r.dst + r.width ≤ g) ∨ (∀ x ∈ r.lanes, x.lane ≠ l) → d.slot g l = c.slot g l)) ∧
       (∀ k, k ≠ r.crew → t.crew k = s.crew k) ∧ t.blocks = s.blocks ∧ (t.hbm = s.hbm ∧ t.hostMem = s.hostMem)) ∧
  (∀ (s : State) (k sym : Nat) (y : Sym) (r : Req),
     let c := s.crew k
     let σ (l : Nat) : Word := match r.lane l with | some x => BitVec.ofNat 32 (loadValue r.zfield x.value) | none => 0
     c.syms.find? (fun z => z.num = sym) = some y → s.req y.req = some r → r.lanes.all LaneReq.back = true →
     (c.forms.map Form.reg).Nodup →
     (y.resolved = false → s.readsPoison r = none → c.egress = [] → (c.threads.any (fun p => p.2.st != .exited)) = true →
       ∃ t, exec (.symbolResolve k sym) s = .next t ∧ (t.crew k).loads = c.loads - 1 ∧ (t.crew k).regs = c.regs ∧
         (t.crew k).preds = c.preds ∧ (t.crew k).threads = c.threads ∧ (∀ j, j ≠ k → t.crew j = s.crew j) ∧
         (t.crew k).forms = c.forms.map (fun f => { f with avail := if f.sym = sym then min f.avail s.cycle else f.avail }) ∧
         (∃ z, (t.crew k).syms.find? (fun z => z.num = sym) = some z ∧ z.resolved = true) ∧
         (⟨s.cycle + 1, 1024 * 50, .symbolResolve k sym⟩ : Timed) ∈ t.agenda ∧ (t.hbm = s.hbm ∧ t.hostMem = s.hostMem)) ∧
     (y.resolved = true →
       ∃ t, exec (.symbolResolve k sym) s = .next t ∧ (t.crew k).loads = c.loads ∧ (t.crew k).preds = c.preds ∧
         (t.crew k).threads = c.threads ∧ (∀ j, j ≠ k → t.crew j = s.crew j) ∧
         (∀ f ∈ c.forms, f.sym = sym → f.avail ≤ s.cycle → (t.crew k).form f.reg = none ∧
           ∀ l, l < 32 → (t.crew k).slot f.reg l =
             if (c.slot f.reg l).rel then c.slot f.reg l else { c.slot f.reg l with val := f.value l (σ l) }) ∧
         (∀ g l, l < 32 → (∀ f ∈ c.forms, f.sym = sym → f.avail ≤ s.cycle → f.reg ≠ g) → (t.crew k).slot g l = c.slot g l) ∧
         (∀ f ∈ c.forms, f.sym ≠ sym ∨ s.cycle < f.avail → f ∈ (t.crew k).forms) ∧ (t.hbm = s.hbm ∧ t.hostMem = s.hostMem)))

/-- STRIKE_CLEARANCE (R413, R280): a store that has left its core for the own sett's home goes on to it. STORE_PERFORMED (R142, R145,
R277): a store's bytes stand in host memory where the outbound filter lets them through, or in the own sett's HBM where no directory state
stands in the way, no other byte changes, no scratchpad or other crew does, and the stores counter falls. Where the rules leave a point
open it follows the model's choice: log 13, 19. -/
def Obligations.StorePerforms : Prop :=
  ∀ (s : State) (id : Nat) (r : Req) (x : LaneReq) (tg : Target), r.kind = .store →
    (s.req id = some r → r.lanes = [x] → x.target = some tg → r.phase = 1 → x.out = true → x.free = false → x.done = false → x.wait = false →
      x.due ≤ s.cycle → isNear x.va = false → tg.rep = false → tg.window = none →
      ∀ a, tg.place = .hbm (crewSett r.crew) a →
      ∃ t, exec (.strikeClearance id) s = .next t ∧ t.req id = some { r with lanes := [{ x with free := true, due := s.cycle + 75 }] } ∧
        (∀ j, j ≠ id → t.req j = s.req j) ∧ (⟨s.cycle + 75, 1024 * 30, .storePerformed id⟩ : Timed) ∈ t.agenda ∧
        t = { s with reqs := t.reqs, agenda := t.agenda }) ∧
    (AtPlace s id r x tg → isNear x.va = false → r.release = false →
      (∀ a, tg.place = .host a → s.portKind r tg = none →
        ∃ t, exec (.storePerformed id) s = .next t ∧ t.hostMem = Memory.writeN s.hostMem a r.size x.data ∧ t.hbm = s.hbm ∧
          (t.crew r.crew).stores = (s.crew r.crew).stores - 1 ∧ (t.crew r.crew).regs = (s.crew r.crew).regs ∧
          (t.crew r.crew).preds = (s.crew r.crew).preds ∧ (t.crew r.crew).threads = (s.crew r.crew).threads ∧
          (∀ k, k ≠ r.crew → t.crew k = s.crew k) ∧ t.blocks = s.blocks ∧ t.req id = none) ∧
      (∀ a, tg.place = .hbm (crewSett r.crew) a → tg.window = none → tg.ks = false → s.lateKind r tg = none →
        (s.sett (crewSett r.crew)).inFaultBuffer a = false → inContext a = false →
        (∀ y ∈ sectorsIn (crewSett r.crew) a r.size, s.sectorState y = 0) →
        ∃ t, exec (.storePerformed id) s = .next t ∧ t.hbm = Memory.writeN s.hbm (hbmAddr (crewSett r.crew) a) r.size x.data ∧
          t.hostMem = s.hostMem ∧ (t.crew r.crew).stores = (s.crew r.crew).stores - 1 ∧ (t.crew r.crew).regs = (s.crew r.crew).regs ∧
          (t.crew r.crew).preds = (s.crew r.crew).preds ∧ (t.crew r.crew).threads = (s.crew r.crew).threads ∧
          (∀ k, k ≠ r.crew → t.crew k = s.crew k) ∧ t.blocks = s.blocks ∧ t.req id = none))

/-- BARRIER_UPDATE (R161, R257): the object takes the update with its completion test, no other byte of the scratchpad and no other block
changes, and the request ends. Where the rules leave a point open it follows the model's choice: log 38. -/
def Obligations.BarrierUpdates : Prop :=
  ∀ (s : State) (id : Nat) (r : Req) (x : LaneReq) (tg : Target) (b o : Nat) (up : BarUpdate), AtPlace s id r x tg →
    (r.kind = .binit ∧ up = .init (x.data % 2 ^ 32) (x.data / 2 ^ 32)) ∨ ((∃ q, r.kind = .arv q) ∧ up = .arrive) ∨
      (r.kind = .bexp ∧ up = .expect x.data) →
    s.objectAt r.crew x.va = some (some (b, o)) →
    ∃ t, exec (.barrierUpdate id) s = .next t ∧
      (t.block b).pad = Memory.writeN (s.block b).pad o 16 ((s.barrier b o).update up).toNat ∧
      (∀ j, j ≠ b → t.block j = s.block j) ∧ t.req id = none ∧ (∀ k, (t.crew k).regs = (s.crew k).regs ∧ (t.crew k).preds = (s.crew k).preds) ∧
      (t.hbm = s.hbm ∧ t.hostMem = s.hostMem)

/-- The fields of a barrier object (R256): BINIT's limits, BEXP's limit, the counts that stop at their maximum, and sat wherever a limit
applies; every update but BINIT and the breaking is followed by the completion test (R257), which completes a phase exactly where both
counts reach what they expect, and then both fall by it. -/
def Obligations.BarrierFields : Prop :=
  ∀ (o : BarObj) (n a b : Nat),
    let top := 2 ^ 16 - 1
    let most := 2 ^ 36 - 1
    let test (p : BarObj) : BarObj := if p.exparv ≤ p.arv ∧ p.expbytes ≤ p.landed
      then { p with arv := p.arv - p.exparv, landed := p.landed - p.expbytes, phase := (p.phase + 1) % 2 ^ 16 } else p
    o.update (.init a b) = { phase := 0, sat := decide (top < a) || decide (most < b), broken := false, exparv := min a top, arv := 0,
                             expbytes := min b most, landed := 0 } ∧
    o.update .arrive = test { o with arv := min (o.arv + 1) top, sat := o.sat || decide (top < o.arv + 1) } ∧
    o.update (.expect n) = test { o with expbytes := min (o.expbytes + n) most, sat := o.sat || decide (most < o.expbytes + n) } ∧
    o.update (.land n) = test { o with landed := min (o.landed + n) most, sat := o.sat || decide (most < o.landed + n) } ∧
    (∀ u, (∀ x y, u ≠ .init x y) → (∀ m, u ≠ .expect m) → ((o.update u).exparv = o.exparv ∧ (o.update u).expbytes = o.expbytes)) ∧
    o.update .break_ = { o with broken := true }

/-- ATOMIC_STEP (R155) and RECONCILE_STEP (R149, R294) on a word of HBM without directory state: the word takes the operation's value
and no other byte of memory, scratchpad or other crew changes; an atomic's lane carries the old value, a reconcile's the collapsed one and
how many values there were, and the cell has no sibling left. HOST_ATOMIC_CAS_RESPONSE (R374): the expected value ends the loop with it;
another one counts a retry, and the CAS is tried again on the value that came. Where the rules leave a point open it follows the model's
choice: log 45, 46. -/
def Obligations.AtomicsPerform : Prop :=
  (∀ (s : State) (id : Nat) (r : Req) (x : LaneReq) (tg : Target) (q a : Nat),
     AtPlace s id r x tg → tg.place = .hbm q a → isNear x.va = false → s.lateKind r tg = none → inContext a = false →
     (s.sett q).inFaultBuffer a = false → (∀ y ∈ sectorsIn q a r.size, s.sectorState y = 0) →
     let old := (s.memRead tg r.size).1
     (∀ op wide order, r.kind = .atom op wide true order →
       ∃ t q', exec (.atomicStep id x.lane) s = .next t ∧
         t.hbm = Memory.writeN s.hbm (hbmAddr q a) r.size
           (atomicNew op (8 * r.size) old (x.data % 2 ^ (8 * r.size)) (x.data / 2 ^ (8 * r.size))) ∧ t.hostMem = s.hostMem ∧
         t.req id = some q' ∧ q'.lanes.map (fun y => (y.done, y.value)) = [(true, old)] ∧ t.blocks = s.blocks ∧ t.crews = s.crews) ∧
     (∀ op wide order, r.kind = .atom op wide false order →
       ∃ t, exec (.atomicStep id x.lane) s = .next t ∧
         t.hbm = Memory.writeN s.hbm (hbmAddr q a) r.size
           (atomicNew op (8 * r.size) old (x.data % 2 ^ (8 * r.size)) (x.data / 2 ^ (8 * r.size))) ∧ t.hostMem = s.hostMem ∧
         t.req id = none ∧ (t.crew r.crew).stores = (s.crew r.crew).stores - 1 ∧ (t.crew r.crew).regs = (s.crew r.crew).regs ∧
         (∀ k, k ≠ r.crew → t.crew k = s.crew k) ∧ t.blocks = s.blocks) ∧
     (∀ mode wide, r.kind = .rcn mode wide → r.size = 4 →
       let vals := if tg.ks then (s.cellValues q a).map (fun v => v.2.toNat) else [old]
       let v := collapse mode vals x.data
       ∃ t q', exec (.reconcileStep id x.lane) s = .next t ∧
         t.hbm = Memory.writeN s.hbm (hbmAddr q a) 4 (if tg.ks then v % 2 ^ 32 else v) ∧ t.hostMem = s.hostMem ∧
         t.req id = some q' ∧ q'.lanes.map (fun y => (y.done, y.value, y.aux)) = [(true, v, vals.length)] ∧
         t.blocks = s.blocks ∧ t.crews = s.crews ∧ (tg.ks = true → t.siblings q a = 0))) ∧
  (∀ (s : State) (id a v op : Nat) (wide order : Bool) (r : Req) (x : LaneReq) (tg : Target),
     s.req id = some r → r.kind = .atom op wide true order → r.lanes = [x] → x.wait = true → x.done = false → x.back = false → x.target = some tg →
     tg.place = .host a →
     (v = x.aux → ∃ t q', exec (.hostAtomicCasResponse id v) s = .next t ∧ t.req id = some q' ∧
       q'.lanes.map (fun y => (y.done, y.wait, y.value)) = [(true, false, v)] ∧ t = { s with reqs := t.reqs, agenda := t.agenda }) ∧
     (v ≠ x.aux → ∃ t, exec (.hostAtomicCasResponse id v) s = .next t ∧ t.hbm = s.hbm ∧
       t.hostMem = (if s.hostRead a r.size = v
         then Memory.writeN s.hostMem a r.size (atomicNew op (8 * r.size) v (x.data % 2 ^ (8 * r.size)) (x.data / 2 ^ (8 * r.size)))
         else s.hostMem) ∧ t.crews = s.crews ∧ t.blocks = s.blocks ∧
       (t.sett (crewSett r.crew)).retryCnt = min (2 ^ 64 - 1) ((s.sett (crewSett r.crew)).retryCnt + 1) ∧
       (⟨s.cycle + 150, 1024 * 30, .hostAtomicCasResponse id (s.hostRead a r.size)⟩ : Timed) ∈ t.agenda))

/-- The deque (R158, R159): a push onto a deque that is not full stores its value at the bottom, a pop takes the newest and a steal the
oldest entry; a full or empty deque answers with failure, a bad one is marked; DEQUE_STEP performs its step at the scratchpad and changes no other byte;
a push leaves the stores counter, a pop's or steal's lane carries the entry and whether there was one. The way through the hub is timed as in
log 13. -/
def Obligations.DequeSteps : Prop :=
  (∀ (h v cap bottom top n : Nat), cap = bits h 95 64 → bottom = bits h 63 32 → top = bits h 31 0 →
    n = (bottom + 2 ^ 32 - top) % 2 ^ 32 → h.testBit 97 = false → capOk cap = true →
    (n ≠ cap → (dequeStepOf 0 h v).write = some (bottom % cap, v) ∧
      bits (dequeStepOf 0 h v).header 63 32 = (bottom + 1) % 2 ^ 32 ∧ bits (dequeStepOf 0 h v).header 31 0 = top) ∧
    (n = cap → (dequeStepOf 0 h v).write = none ∧ (dequeStepOf 0 h v).header.testBit 96 = true ∧
      bits (dequeStepOf 0 h v).header 63 0 = bits h 63 0) ∧
    (n ≠ 0 → (dequeStepOf 1 h v).entry = some ((bottom + 2 ^ 32 - 1) % 2 ^ 32 % cap) ∧
      (dequeStepOf 2 h v).entry = some (top % cap) ∧ bits (dequeStepOf 2 h v).header 31 0 = (top + 1) % 2 ^ 32) ∧
    (n = 0 → (dequeStepOf 1 h v).entry = none ∧ (dequeStepOf 2 h v).entry = none ∧
      bits (dequeStepOf 1 h v).header 63 0 = bits h 63 0 ∧ bits (dequeStepOf 2 h v).header 63 0 = bits h 63 0)) ∧
  (∀ (h v k : Nat), capOk (bits h 95 64) = false → (dequeStepOf k h v).entry = none ∧ (dequeStepOf k h v).write = none ∧
    (dequeStepOf k h v).header.testBit 97 = true) ∧
  (∀ (s : State) (hub k core id b o : Nat) (r : Req) (x : LaneReq) (tg : Target),
    s.dequeReady hub = [(k, core, x.lane, id)] → s.reqs = [(id, some r)] → AtPlace s id r x tg →
    (r.kind = .dqPush ∧ k = 0) ∨ (r.kind = .dqPop ∧ k = 1) ∨ (r.kind = .dqSteal ∧ k = 2) →
    let place (j : Nat) := s.nearPlace r.crew (s.crew r.crew).core j
    (∀ j, j < 16 → place (x.va % 2 ^ 24 + j) = some (.pad b (o + j))) →
    let pad := (s.block b).pad
    let d := dequeStepOf k (Memory.readN pad o 16) x.data
    (∀ i, (d.entry = some i ∨ ∃ v, d.write = some (i, v)) → ∀ j, j < 4 →
      place ((x.va + 16 + 4 * i) % 2 ^ 24 + j) = some (.pad b (o + 16 + 4 * i + j))) →
    let new := Memory.writeN pad o 16 d.header
    ∃ t, exec (.dequeStep hub) s = .next t ∧
      (t.block b).pad = (match d.write with | some (i, v) => Memory.writeN new (o + 16 + 4 * i) 4 v | none => new) ∧
      (∀ j, j ≠ b → t.block j = s.block j) ∧ (∀ j, (t.crew j).regs = (s.crew j).regs ∧ (t.crew j).preds = (s.crew j).preds) ∧
      (t.hbm = s.hbm ∧ t.hostMem = s.hostMem) ∧
      (k = 0 → t.req id = none ∧ (t.crew r.crew).stores = (s.crew r.crew).stores - 1) ∧
      (k ≠ 0 → ∃ q', t.req id = some q' ∧ q'.lanes.map (fun y => (y.done, y.value, y.aux)) =
        [(true, (match d.entry with | some i => Memory.readN new (o + 16 + 4 * i) 4 | none => 0), if d.entry.isSome then 1 else 0)]))

/-- The steps of a copy (R163, R170, R264 to R267, R353): its start, which judges the targets and enters its ranges on the scoreboard; a piece
for near memory, which lands at every target of its row and is counted at the target's barrier; a piece for device or peer memory, which
leaves for its home; the report that it was performed, which raises a PUT's counter or credits the issuer's barrier; and its retirement,
which takes its ranges off the scoreboards, sets the issuer's status bits, lowers the copies counter, and takes a copy-fault trap where a
fault ended it. Registers, predicates and memory are otherwise as before. Where the rules leave a point open it follows the model's
choice: log 53, 55. -/
def Obligations.CopySteps : Prop :=
  ∀ (s : State) (id : Nat) (c : Copy), s.copy id = some c →
    let dst : Nat := wrap 64 (rowAddr (dDst c.desc) (dDstride c.desc) c.row +
      (if dKind c.desc = 5 then 64 * (c.off / blockBytes (dFmt c.desc)) else c.off) : Nat)
    let kept (t : State) : Prop := t.hostMem = s.hostMem ∧
      ∀ j, (t.crew j).regs = (s.crew j).regs ∧ (t.crew j).preds = (s.crew j).preds ∧ (t.crew j).threads = (s.crew j).threads
    let size := c.pieceSize.2
    (c.started = none → (s.core c.core).restoring = none → c.flying = 0 →
      ∃ t y, exec (.copyStart id) s = .next t ∧ t.copy id = some y ∧ y.started = some s.cycle ∧ y.desc = c.desc ∧
        (∀ k, k < 4 → y.reached.testBit k = decide (k ∈ c.aims ∧ s.reachable c k = true) ∧
          y.missed.testBit k = decide (k ∈ c.aims ∧ s.reachable c k = false)) ∧
        (∀ e, e ∈ (s.core c.core).score ∨
            (e.copy = id ∧ ((e.lo, e.hi) = rangeOf (dSrc c.desc) (dSstride c.desc) (dRows c.desc) (dRowBytes c.desc) ∨
              (e.lo, e.hi) = rangeOf (dDst c.desc) (dDstride c.desc) (dRows c.desc) (dDstBytes c.desc)) ∧ e.gang = crewRec c.crew) →
          e ∈ (t.core c.core).score) ∧
        ((isNear (dDst c.desc) = true ∧ ∀ k ∈ c.aims, s.reachable c k = false) →
          (⟨s.cycle, 1024 * 33, .copyRetire id⟩ : Timed) ∈ t.agenda) ∧
        (¬ (isNear (dDst c.desc) = true ∧ ∀ k ∈ c.aims, s.reachable c k = false) →
          ∃ n, (⟨s.cycle + n, 1024 * 33, .copyPieceLand id 0⟩ : Timed) ∈ t.agenda ∧
            (isNear (dDst c.desc) = true → (∃ k ∈ c.aims, k ≠ c.core % 4 ∧ s.reachable c k = true) → 257 ≤ n)) ∧
        (c.barrier = 0 → t.blocks = s.blocks) ∧ kept t ∧ t.hbm = s.hbm) ∧
    (c.parked = false → c.fault = none → c.spent = false → (s.core c.core).routeFree ≤ s.cycle → (s.core c.core).restoring = none →
      s.turnBefore id c = false →
      ∀ v s1, s.pieceData c c.pieceSize.1 = (.ok v false, s1) →
        (isNear dst = true → ∀ ks, c.rowAims.filter (fun k => c.reached.testBit k) = ks →
          (∀ k ∈ ks, (s1.copyBlock c k).isSome = true ∧ (s1.core (4 * (c.core / 4) + k)).fenced = false) →
          ∃ t y, exec (.copyPieceLand id c.piece) s = .next t ∧ t.copy id = some y ∧ y.piece = c.piece + 1 ∧ y.row = c.advanced.row ∧
            y.off = c.advanced.off ∧ y.flying = c.flying ∧ kept t ∧ t.hbm = s1.hbm ∧
            (c.barrier = 0 → t.blocks = (ks.foldl (fun s k => (s.landAt c k size v false).1) s1).blocks) ∧
            (∀ k, ks = [k] → (s1.landAt c k size v false).1.barrierAhead id c k = false →
              t.blocks = ((s1.landAt c k size v false).1.copyUpdate c k (.land size)).blocks)) ∧
        (∀ tg, isNear dst = false → s1.translate (crewSett c.crew) c.core dst size .write true = .ok tg → tg.rep = false →
          tg.window.isSome = c.put →
          (∀ q a, tg.place = .hbm q a →
            ∃ t y id' r, exec (.copyPieceLand id c.piece) s = .next t ∧ t.copy id = some y ∧ y.piece = c.piece + 1 ∧
              y.flying = c.flying + 1 ∧ t.req id' = some r ∧ r.lanes.map (fun x => (x.va, x.target, x.data)) = [(dst, some tg, v)] ∧
              r.size = size ∧ (⟨s1.cycle + (256 + 75 + (if c.put then 60 else 0)), 1024 * 14, .wr q id'⟩ : Timed) ∈ t.agenda ∧
              kept t ∧ t.hbm = s1.hbm ∧ t.blocks = s1.blocks) ∧
          (∀ w a, tg.place = .remote w a →
            ∃ t y, exec (.copyPieceLand id c.piece) s = .next t ∧ t.copy id = some y ∧ y.piece = c.piece + 1 ∧
              y.flying = c.flying + 1 ∧ (⟨s1.cycle + 391, 1024 * 32, .putPiecePerformed id c.piece⟩ : Timed) ∈ t.agenda ∧
              kept t ∧ t.hbm = s1.hbm ∧ t.blocks = s1.blocks))) ∧
    (∀ p, p < c.piece →
      let n := ({ c with piece := 0, row := 0, off := 0 } : Copy).nth p
      (c.put = false →
        ∃ t y, exec (.putPiecePerformed id p) s = .next t ∧ t.copy id = some y ∧ y.flying = c.flying - 1 ∧ kept t ∧ t.hbm = s.hbm ∧
          (s.barrierAhead id c (c.core % 4) = false → t.blocks = (s.copyUpdate c (c.core % 4) (.land n)).blocks)) ∧
      (c.put = true → isNear c.barrier = true →
        ∃ t y, exec (.putPiecePerformed id p) s = .next t ∧ t.copy id = some y ∧ y.flying = c.flying - 1 ∧ t.hbm = s.hbm ∧
          t.hostMem = s.hostMem ∧
          t.blocks = (s.nearWrite c.crew c.core (c.barrier % 2 ^ 24)
            ((s.nearRead c.crew c.core (c.barrier % 2 ^ 24) 8).1 + n) 8).1.blocks) ∧
      (∀ tg a, c.put = true → isNear c.barrier = false → s.seekTarget c c.barrier 8 .write = .ok tg →
        tg.place = .hbm (crewSett c.crew) a → tg.window = none → s.placeKind (crewSett c.crew) tg = none → inContext a = false →
        (s.sett (crewSett c.crew)).inFaultBuffer a = false → (∀ y ∈ sectorsIn (crewSett c.crew) a 8, s.sectorState y = 0) →
        ∃ t y, exec (.putPiecePerformed id p) s = .next t ∧ t.copy id = some y ∧ y.flying = c.flying - 1 ∧ kept t ∧
          t.blocks = s.blocks ∧ t.hbm = Memory.writeN s.hbm (hbmAddr (crewSett c.crew) a) 8
            (((s.hbmReadKey (crewSett c.crew) a 8 tg.key).1 + n) % 2 ^ 64))) ∧
    (c.flying = 0 → c.owed = [] →
      let ends (t : State) : Prop := t.copy id = none ∧ (∀ g, ∀ e ∈ (t.core g).score, e.copy ≠ id) ∧ (∀ g, id ∉ (t.core g).copies) ∧
        (∀ x, Tab.get none s.groups c.group = some x → x.left ≤ 1 → x.crew = c.crew →
          (t.crew c.crew).copies = (s.crew c.crew).copies - 1) ∧ kept t ∧ t.hbm = s.hbm ∧
        (c.flags = {} → ∀ b, b < 32 → (t.crew c.crew).status.getLsbD b =
          ((s.crew c.crew).status.getLsbD b || (c.missed * 2 ^ 8).testBit b || (decide (b = 3) && c.missed != 0 && c.reached != 0)))
      (c.fault = none → c.spent = true → ∃ t, exec (.copyRetire id) s = .next t ∧ ends t ∧ t.blocks = s.blocks ∧
        (t.crew c.crew).deferred = (s.crew c.crew).deferred) ∧
      (∀ e, c.fault = some e → (s.crew c.crew).live = true → (s.crew c.crew).deferred.length < 8 →
        ∃ t, exec (.copyRetire id) s = .next t ∧ ends t ∧ (c.barrier = 0 → t.blocks = s.blocks) ∧
          ∃ d ∈ (t.crew c.crew).deferred, d.code = Trap.copyFault.code ∧ d.pc = c.pc ∧ d.info = BitVec.ofNat 32 e ∧ d.entry = some e))

/-- The collective engine (R174, R281, R379 to R381): a packet of a stale attempt is dropped, one for a running collective joins it once,
and the last lets it complete; one that came early is kept; the own rank's packet reads the send buffer and sends it to the other ranks of
the module; a token ends the attempt and its collectives; completion writes the receive buffer, adds 1 to done, frees the slot and
takes the handle from its crew. POST_BUFFER_DRAIN (R182, R317): a card that has been read goes to its queue and leaves the buffer, and
its POST completes; one whose queue is full stays; a faulty one leaves with a job-card trap for its crew. Where the rules leave a point
open it follows the model's choice: log 12, 25, 57, 59, 110. -/
def Obligations.CollectiveSteps : Prop :=
  (∀ (s : State) (sett g att seq rank data slot : Nat),
     let x := s.group sett g
     (staleAttempt x.attempt att = true →
       exec (.collPacketReceive sett g att seq rank data) s = .next s ∧ exec (.abortTokenReceive sett g att) s = .next s) ∧
     (staleAttempt x.attempt att = false →
       (∀ c, x.attempt = att → s.collSlot sett g att seq = some (slot, c) → rank ≠ x.me →
         ((∀ p ∈ c.got, p.1 ≠ rank) →
           ∃ t, exec (.collPacketReceive sett g att seq rank data) s = .next t ∧
             Tab.get none (t.sett sett).colls slot = some { c with got := c.got ++ [(rank, data)] } ∧
             (c.got.length = (s.group sett c.group).n → (⟨s.cycle + 1, 1024 * 35, .collectiveComplete sett slot⟩ : Timed) ∈ t.agenda) ∧
             t = { s with setts := t.setts, agenda := t.agenda }) ∧
         ((∃ p ∈ c.got, p.1 = rank) → exec (.collPacketReceive sett g att seq rank data) s = .next s)) ∧
       ((x.attempt ≠ att ∨ s.collSlot sett g att seq = none) → rank ≠ x.me →
         ∃ t, exec (.collPacketReceive sett g att seq rank data) s = .next t ∧
           (t.group sett g).held = x.held ++ [(att, seq, rank, data)] ∧ t = { s with setts := t.setts }) ∧
       (∀ c parts s1, x.attempt = att → s.collSlot sett g att seq = some (slot, c) → (∀ p ∈ c.got, p.1 ≠ x.me) →
         s.collBuffer sett c.send (c.sizes (x.n + 1)).1 .read false = .ok parts → s.partsReady parts = (true, s1) →
         let v := c.packet (s1.readParts parts (c.sizes (x.n + 1)).1).1
         let s2 := (s1.readParts parts (c.sizes (x.n + 1)).1).2
         ∃ t, exec (.collPacketReceive sett g att seq x.me data) s = .next t ∧
           Tab.get none (t.sett sett).colls slot = some { c with got := c.got ++ [(x.me, v)] } ∧ t.hbm = s2.hbm ∧ t.crews = s2.crews ∧
           (∀ p ∈ s2.otherRanks sett g, p.2 / 2 ^ 52 = 0 →
             (⟨s2.cycle + 60, 1024 * 35, .collPacketReceive (p.2 / 2 ^ 49 % 8) g att seq x.me v⟩ : Timed) ∈ t.agenda)) ∧
       (∃ t, exec (.abortTokenReceive sett g att) s = .next t ∧ (t.group sett g).attempt = (att + 1) % 65536 ∧
         (t.group sett g).issued = 0 ∧
         (∀ i c, Tab.get none (s.sett sett).colls i = some c → c.group = g → c.attempt = att → c.aborted = false →
           Tab.get none (t.sett sett).colls i = some { c with aborted := true } ∧ c.attempt * 65536 + i ∉ (t.crew c.crew).colls) ∧
         t.hbm = s.hbm ∧ t.hostMem = s.hostMem ∧ t.blocks = s.blocks)) ∧
     (∀ c parts s1, Tab.get none (s.sett sett).colls slot = some c → c.aborted = false →
       s.collBuffer sett c.recv (c.sizes ((s.group sett c.group).n + 1)).2 .write true = .ok parts → s.partsWritable parts = (true, s1) →
       let sizes := c.sizes ((s.group sett c.group).n + 1)
       let out := c.result ((s.group sett c.group).n + 1) (s.group sett c.group).me sizes.2 s1.draws
       let bad := c.poisoned sizes.1
       let ends (t : State) : Prop := Tab.get none (t.sett sett).colls slot = none ∧ c.attempt * 65536 + slot ∉ (t.crew c.crew).colls
       (c.doneCtr = 0 →
         ∃ t, exec (.collectiveComplete sett slot) s = .next t ∧ ends t ∧
           t.hbm = (s1.draw.2.writeParts c parts out bad).hbm ∧ t.hostMem = (s1.draw.2.writeParts c parts out bad).hostMem) ∧
       (∀ tg s2, c.doneCtr ≠ 0 → s1.draw.2.collTarget sett c.doneCtr 8 .write false = .ok tg →
         s1.draw.2.partsWritable [(8, 0, tg)] = (true, s2) →
         ∃ t, exec (.collectiveComplete sett slot) s = .next t ∧ ends t ∧
           t.hbm = ((s2.writeParts c parts out bad).raiseDone c tg).2.hbm ∧
           t.hostMem = ((s2.writeParts c parts out bad).raiseDone c tg).2.hostMem)) ∧
     (∀ c : Coll, c.op = 1 → c.unequal = false → ∀ ranks me n d j e : Nat, j < ranks → e < collWidth c.type * c.count →
       ∀ w, c.got.find? (fun p => p.1 = j) = some (j, w) →
       c.result ranks me n d / 256 ^ (j * (collWidth c.type * c.count) + e) % 256 = w / 2 ^ 64 / 256 ^ e % 256)) ∧
  (∀ (s : State) (core v : Nat) (p : PostCard) (r : Req), (s.core core).post = [p] → p.card = some v → s.req p.req = some r →
     r.kind = .post → r.phase = 1 → r.sym = none → r.awaiting = false → r.crew = p.crew → r.lanes.all LaneReq.done = true →
     (s.crew p.crew).fenceSys = false →
     let completed (t : State) : Prop := (t.core core).post = [] ∧ t.req p.req = none ∧
       (t.crew p.crew).stores = (s.crew p.crew).stores - 1 ∧
       ∀ k, (t.crew k).regs = (s.crew k).regs ∧ (t.crew k).preds = (s.crew k).preds
     (∀ s1, (s.readCards core).postCard (coreSett core) v = .taken s1 →
       ∃ t, exec (.postBufferDrain core) s = .next t ∧ completed t ∧ t.setts = s1.setts ∧ t.hbm = s1.hbm) ∧
     ((s.readCards core).postCard (coreSett core) v = .full →
       ∃ t, exec (.postBufferDrain core) s = .next t ∧ (t.core core).post = [p] ∧ t.setts = s.setts ∧ t.hbm = s.hbm ∧ t.crews = s.crews) ∧
     ((s.readCards core).postCard (coreSett core) v = .bad → (s.crew p.crew).live = true → (s.crew p.crew).deferred = [] →
       ∃ t, exec (.postBufferDrain core) s = .next t ∧ completed t ∧ t.setts = s.setts ∧ t.hbm = s.hbm ∧
         (t.crew p.crew).deferred.map (fun d => (d.code, d.pc, d.info)) = [(14, p.pc, BitVec.ofNat 32 p.lane)]))

/-- A write to a keep-siblings cell (R288): it is discarded exactly where a value of the cell dominates it; one that is written stands
beside the values that it does not dominate and beside no other, and the cell's record belongs to the home's device generation. Where
the rules leave a point open it follows the model's choice: log 16. -/
def Obligations.KeepSiblings : Prop :=
  ∀ (s : State) (q a key : Nat) (v : Word) (n : Stamp) (fr : List (Nat × Nat)) (launch : Option Nat) (x : CellRec),
    (s.sett q).cell a = some x → x.gen = (s.sett q).devgen → inContext a = false → (s.sett q).inFaultBuffer a = false →
    let vals := (x.pstamp, BitVec.ofNat 32 (s.hbmRead q a 4)) :: x.sibs
    let r := s.cellWrite q a key v n fr launch
    (r.1 = .discarded ↔ ∃ o ∈ vals, o.1.dominates n [] (s.sett q).devgen = true) ∧
    (r.1 ≠ .written → r.2 = s) ∧
    (r.1 = .written → ∃ y, (r.2.sett q).cell a = some y ∧ y.gen = (s.sett q).devgen ∧
      ∀ p, p ∈ (y.pstamp, BitVec.ofNat 32 (r.2.hbmRead q a 4)) :: y.sibs ↔
        p = (n, v) ∨ (p ∈ vals ∧ n.dominates p.1 fr (s.sett q).devgen = false))

/-- The queue of a sequencer (R214 to R217, R226, R232): a good block is noted and leaves the scoreboard, a bad one fails its entry with its
reason; a multicast entry enters another core's queue; an entry that may start begins; a stop discards what is uncommitted; an entry
that has ended at another target reports to its issuing core; one whose fault was found takes the tile-parameter trap; one that has ended
at its last target leaves, lowers the tiles counter and sets the status bits. Modes, sums and scales of tile slots (R220, R222): with its
phase ended an AMODE.compute switches every slot of its run and the column sums follow, an AMODE.storage sends its slots to storage mode
and a slot that enters it loses its sums, and an MLOAD gives a slot its scales. Where the rules leave a point open it follows the model's
choice: log 62, 63, 66. -/
def Obligations.SequencerQueue : Prop :=
  (∀ (s : State) (g op : Nat) (o : SeqOp), s.seqOp g op = some o → o.core = g → o.id = op →
     (o.params = none → o.state = .queued → o.stopped = false → o.parkedOn = none → o.failed = false → o.home = g → o.reason = none →
       let fails (why : Nat) : Prop := ∃ t y, exec (.seqBlockRead g op) s = .next t ∧ t.seqOp g op = some y ∧ y.state = .retired ∧
         y.reason = some why ∧ t.blocks = s.blocks ∧ t.crews = s.crews
       (∀ r, s.blockReason o = some r → fails r) ∧
       (∀ p s1, s.blockReason o = none → s.seqLoad o o.addr 128 = (.ok p false, s1) →
         (badBlock o.form p (s1.block o.block).arrays (s1.block o.block).accum = none → mMask p = 0 →
           ∃ t y, exec (.seqBlockRead g op) s = .next t ∧ t.seqOp g op = some y ∧
             y = { o with params := some p, flags := y.flags } ∧ (∀ e ∈ (t.core g).score, e.copy ≠ op) ∧
             (⟨s1.cycle, 1024 * 38, .seqStart g⟩ : Timed) ∈ t.agenda ∧ t.blocks = s.blocks ∧ t.crews = s.crews) ∧
         (∀ why, badBlock o.form p (s1.block o.block).arrays (s1.block o.block).accum = some why → fails why))) ∧
     (∀ g', (s.cores.findSome? (fun p => if p.1 = 4 * (g' / 4) + p.1 % 4 && p.1 != g' then
           p.2.seq.find? (fun z => z.id = op && z.home = p.1) else none)) = some o → s.seqOp g' op = none →
       (o.params.isSome = true → o.targets.testBit (g' % 4) = true) → (s.maskOf? o).testBit (g' % 4) = true →
       ∃ t e, exec (.multicastEnqueue g' op) s = .next t ∧ (t.core g').seq = (s.core g').seq ++ [e] ∧ e.id = op ∧ e.core = g' ∧
         (∀ b, s.gangBlockOn (crewSett o.crew) (crewRec o.crew) g' = some b → e.block = b) ∧ e.state = .queued ∧ e.params = o.params ∧
         e.form = o.form ∧ e.home = o.home ∧ (⟨s.cycle, 1024 * 38, .seqStart g'⟩ : Timed) ∈ t.agenda ∧
         (∀ k, k ≠ g' → t.core k = s.core k) ∧ t = { s with cores := t.cores, agenda := t.agenda }) ∧
     ((s.core g).restoring = none → (s.core g).fenced = false → (s.core g).startable = some o → o.issued + 1 ≤ s.cycle →
       let begins (st : SeqState) (delay key : Nat) (ev : Event) : Prop := ∃ t y, exec (.seqStart g) s = .next t ∧ t.seqOp g op = some y ∧
         y.state = st ∧ (⟨s.cycle + delay, 1024 * key, ev⟩ : Timed) ∈ t.agenda ∧ t = { s with cores := t.cores, agenda := t.agenda }
       (∀ p, o.form = 1 → o.params = some p → (∀ x ∈ s.opTiles o, x.compute = false) →
         begins .running ((if isNear (lScales p) then 0 else (s.seqRoute o (lScales p)).1) + (if lSpan p = 0 then 8 else 72)) 35
           (.mloadSlotDone g op)) ∧
       (∀ p, o.form = 2 → o.params = some p → (s.block o.block).live = true → (s.block o.block).ended = false →
         mFirst p + mChains p * mLen p ≤ (s.block o.block).arrays → mArow p + mVecs p * mChains p ≤ (s.block o.block).accum →
         (∀ x ∈ s.opTiles o, x.compute = true ∧ groupOf (mG p) ≤ x.spanRows) →
         begins .running (s.fetchTime o p) 35 (.mmvFetchDone g op)) ∧
       (∀ p, o.form = 4 → o.params = some p → aOp p = 0 → begins .running 4 35 (.accRowDone g op)) ∧
       (o.form = 5 → o.addr.testBit 7 = false → o.addr.testBit 15 = false → oFirst o.addr + oCnt o.addr ≤ (s.block o.block).arrays →
         16 * oBar o.addr + 16 ≤ (s.block o.block).scratch → begins .waiting 0 37 (.amodeSwitch g op))) ∧
     (o.state ≠ .retired → o.stopped = false → ¬ (o.form = 5 ∧ o.state = .running) →
       ∃ t y, exec (.seqStopRequest g op) s = .next t ∧ t.seqOp g op = some y ∧ y.stopped = true ∧ y.inputs = [] ∧ y.planes = [] ∧
         y.sums = [] ∧ y.done = o.done ∧ y.params = o.params ∧ t.blocks = s.blocks) ∧
     (∀ h z, o.home = h → h ≠ g → s.seqOp h op = some z → o.state = .retired →
       ∃ t y, exec (.seqOpRetire g op) s = .next t ∧ t.seqOp g op = none ∧ t.seqOp h op = some y ∧
         y = { z with targets := y.targets, reached := z.reached ||| o.reached, missed := z.missed ||| o.missed, flags := z.flags.or o.flags } ∧
         y.targets.testBit (g % 4) = false ∧ t.blocks = s.blocks ∧ t.crews = s.crews) ∧
     (∀ r, o.home = g → o.reason = some r → o.trapped = false → (s.crew o.crew).live = true → (s.crew o.crew).deferred.length < 8 →
       ∃ t, exec (.seqOpRetire g op) s = .next t ∧ ∃ d ∈ (t.crew o.crew).deferred, d.code = Trap.tileParam.code ∧ d.pc = o.pc ∧
         d.info = BitVec.ofNat 32 (o.lane + 256 * r) ∧ d.entry = o.entry) ∧
     (o.state = .retired → o.home = g → o.targets = 0 → o.reason = none → o.reached ≠ 0 →
       ∃ t, exec (.seqOpRetire g op) s = .next t ∧ t.seqOp g op = none ∧ (t.crew o.crew).tiles = (s.crew o.crew).tiles - 1 ∧
         (o.flags = {} → ∀ b, b < 32 → (t.crew o.crew).status.getLsbD b =
           ((s.crew o.crew).status.getLsbD b || (o.missed * 2 ^ 8).testBit b || (decide (b = 3) && o.missed != 0))) ∧
         (∀ k, (t.crew k).regs = (s.crew k).regs ∧ (t.crew k).preds = (s.crew k).preds) ∧ t.blocks = s.blocks ∧
         (t.hbm = s.hbm ∧ t.hostMem = s.hostMem))) ∧
  (∀ (s : State) (g op : Nat) (o : SeqOp), s.seqOp g op = some o → o.core = g → o.id = op → o.stopped = false →
     let slot (t : State) (j : Nat) : Tile := Tab.get Tile.init (t.block o.block).slots j
     let inRun (j : Nat) : Prop := oFirst o.addr ≤ j ∧ j < oFirst o.addr + oCnt o.addr
     (o.state = .waiting → (s.barrier o.block (16 * oBar o.addr)).broken = false →
       amodeReady (s.barrier o.block (16 * oBar o.addr)) (oPhase o.addr) = true →
       s.copyInto g (crewRec o.crew) (oFirst o.addr) (oCnt o.addr) = false → (s.core g).running < 4 → (s.core g).restoring = none →
       (o.compute = true → s.slotPoison o.block (oFirst o.addr) (oCnt o.addr) = false) →
       ∃ t y, exec (.amodeSwitch g op) s = .next t ∧ t.seqOp g op = some y ∧ y.state = .running ∧ t.crews = s.crews ∧ t.hbm = s.hbm ∧
         (o.compute = true → (∀ j, inRun j → (slot t j).compute = true) ∧ (∀ j, ¬ inRun j → slot t j = slot s j) ∧
           ∃ n, n ≤ 256 ∧ (⟨s.cycle + n, 1024 * 35, .columnSumDone g op⟩ : Timed) ∈ t.agenda) ∧
         (o.compute = false → t.blocks = s.blocks ∧
           (∀ j, inRun j → (slot s j).compute = true → (⟨s.cycle + 16, 1024 * 35, .amodeStorageEntry o.block j⟩ : Timed) ∈ t.agenda) ∧
           ∃ n, n ≤ 17 ∧ (⟨s.cycle + n, 1024 * 37, .amodeSwitch g op⟩ : Timed) ∈ t.agenda)) ∧
     (o.state = .running → o.compute = false →
       ∃ t y, exec (.amodeSwitch g op) s = .next t ∧ t.seqOp g op = some y ∧ y.state = .retired ∧ y.done = oCnt o.addr ∧ t.blocks = s.blocks) ∧
     (o.state = .running →
       ∃ t y, exec (.columnSumDone g op) s = .next t ∧ (∀ j, inRun j → (slot t j).sums = true) ∧ (∀ j, ¬ inRun j → slot t j = slot s j) ∧
         t.seqOp g op = some y ∧ y.state = .retired ∧ t.crews = s.crews) ∧
     (∀ b j, (s.block b).live = true →
       ∃ t, exec (.amodeStorageEntry b j) s = .next t ∧ t = { s with blocks := t.blocks } ∧ (∀ k, k ≠ b → t.block k = s.block k) ∧
         (∀ k, k ≠ j → Tab.get Tile.init (t.block b).slots k = Tab.get Tile.init (s.block b).slots k) ∧
         Tab.get Tile.init (t.block b).slots j = (if (Tab.get Tile.init (s.block b).slots j).compute
           then { Tab.get Tile.init (s.block b).slots j with compute := false, sums := false, wpos := [], wneg := [] }
           else Tab.get Tile.init (s.block b).slots j)) ∧
     (∀ p w s1, o.params = some p → o.state = .running → o.parkedOn = none → o.failed = false →
       s.seqLoad o (wrap 64 (lScales p + 512 * o.done : Nat)) 512 = (.ok w false, s1) → s1.slotPoison o.block (lFirst p + o.done) 1 = false →
       ∃ t y, exec (.mloadSlotDone g op) s = .next t ∧
         slot t (lFirst p + o.done) = (slot s1 (lFirst p + o.done)).load ((List.range 512).map (fun k => w / 256 ^ k % 256)) (lSpan p) ∧
         (∀ j, j ≠ lFirst p + o.done → slot t j = slot s1 j) ∧ t.seqOp g op = some y ∧ y.done = o.done + 1 ∧
         (o.done + 1 = lCnt p → y.state = .retired) ∧ t.crews = s1.crews ∧ t.hbm = s1.hbm))

/-- The steps of a matrix product (R195, R203 to R206, R227 to R231): inputs are fetched, the high planes are converted and the gate
decides, the low planes follow where it did not skip, the sums are formed from start values and planes, and a row is committed whole;
planes carry the converter's free deviation (log 7). ACC (R234, R235): a ZERO clears its row, a LOAD takes the 64 words of memory, an
ADD adds them in FP32 and a STORE sends its row to the scratchpad or to its home; other rows stay, and after the last row the operation
retires. Crews, and memory but for the STORE's row, are as before. -/
def Obligations.ProductSteps : Prop :=
  (∀ (s : State) (g op p : Nat) (o : SeqOp), s.seqOp g op = some o → o.core = g → o.id = op → o.stopped = false → o.params = some p →
     o.state = .running →
     let acc (t : State) (n : Nat) : Word := Tab.get 0 (t.block o.block).acc n
     let kept (t : State) : Prop := t.crews = s.crews ∧ t.hbm = s.hbm ∧ t.hostMem = s.hostMem
     (∀ v x y s1 s2, o.parkedOn = none → o.fetched < o.count → o.vector o.fetched = some v →
       (((s.seqOp o.home op).getD o).shared.find? (fun z => z.1 = o.fetched)) = none →
       let at_ : Nat := wrap 64 (mIn p + v * mIstride p : Nat)
       let sc : Nat := wrap 64 (mIsc p + v * mSstride p : Nat)
       padBytesAt at_ (mLen p * mRows p) = true → padBytesAt sc ((mLen p * mRows p + 31) / 32) = true →
       s.seqLoad o at_ (mLen p * mRows p) = (.ok x false, s1) →
       s1.seqLoad o sc ((mLen p * mRows p + 31) / 32) = (.ok y false, s2) → s2.opPoison o = false →
       ∃ t z, exec (.mmvFetchDone g op) s = .next t ∧ t.seqOp g op = some z ∧ z.fetched = o.fetched + 1 ∧
         z.inputs = o.inputs ++ [(o.fetched, (List.range (mLen p * mRows p)).map (fun k => x / 256 ^ k % 256),
           (List.range ((mLen p * mRows p + 31) / 32)).map (fun k => y / 256 ^ k % 256))] ∧ t.crews = s2.crews ∧ t.hbm = s2.hbm ∧
         t.blocks = s2.blocks) ∧
     (o.converting = true →
       ((mAcc p = true → ∀ c, c < mChains p → 2 ^ 17 + o.row o.vec c ∉ (s.block o.block).poison) →
        ∃ t z n, exec (.mmvHighPlanesDone g op) s = .next t ∧ t.seqOp g op = some z ∧
         z.planes = s.draw.2.convert { o with planes := [], skips := [], starts := [] } p [7, 6, 5, 4] (fun _ _ => true) s.draws ∧
         (mAcc p = true → ∀ c k, c < mChains p → k < 64 → Tab.get 0 z.starts (64 * c + k) = acc s (64 * o.row o.vec c + k)) ∧
         (mAcc p = false → z.starts = []) ∧ (mGate p = 0 → z.skips = []) ∧ (o.gateTiming = false → n = halfTime p) ∧
         (⟨s.cycle + n, 1024 * 35, .mmvLowPlanesDone g op⟩ : Timed) ∈ t.agenda ∧ kept t ∧ t.blocks = s.blocks) ∧
       (∃ t z, exec (.mmvLowPlanesDone g op) s = .next t ∧ t.seqOp g op = some z ∧ z.sumv = o.vec ∧ z.vec = o.vec + 1 ∧
         z.planes = s.draw.2.convert o p [3, 2, 1, 0] (fun c col => (Tab.get none o.skips (64 * c + col)).isNone) s.draws ∧
         (⟨s.cycle + 8, 1024 * 35, .mmvSumDone g op⟩ : Timed) ∈ t.agenda ∧ kept t ∧ t.blocks = s.blocks)) ∧
     (∃ t z, exec (.mmvSumDone g op) s = .next t ∧ t.seqOp g op = some z ∧
       (⟨s.cycle, 1024 * 36, .rowCommit g op⟩ : Timed) ∈ t.agenda ∧ kept t ∧ t.blocks = s.blocks ∧
       ((o.vector o.sumv).isSome = true → ∀ c k, c < mChains p → k < 64 → Tab.get 0 z.sums (64 * c + k) =
         (match Tab.get none o.skips (64 * c + k) with
           | some r => r
           | none => BitVec.ofNat 32 (gateExact (mProd p) (s.column o p o.sumv c k (fun x _ =>
               o.partSum p c k x [7, 6, 5, 4, 3, 2, 1, 0])))))) ∧
     (∃ t z, exec (.rowCommit g op) s = .next t ∧ t.seqOp g op = some z ∧ z.done = o.done + 1 ∧ kept t ∧
       (o.done % mChains p + 1 = mChains p → o.done + 1 = o.count * mChains p → z.state = .retired) ∧
       ((o.vector o.sumv).isSome = true →
         (∀ k, k < 64 → acc t (64 * o.row o.sumv (o.done % mChains p) + k) = Tab.get 0 o.sums (64 * (o.done % mChains p) + k)) ∧
         (∀ n, n / 64 ≠ o.row o.sumv (o.done % mChains p) → acc t n = acc s n)) ∧
       ((o.vector o.sumv).isSome = false → t.blocks = s.blocks))) ∧
  (∀ (s : State) (g op p : Nat) (o : SeqOp), s.seqOp g op = some o → o.core = g → o.id = op → o.stopped = false → o.params = some p →
     o.state = .running → o.parkedOn = none → o.failed = false →
     let acc (t : State) (n : Nat) : Word := Tab.get 0 (t.block o.block).acc n
     let row := aRow p + o.done
     let va := rowAddr (aMem p) (aStride p) o.done
     let v := accBytes p (fun c => (acc s (64 * row + c)).toNat)
     let steps (t : State) : Prop := exec (.accRowDone g op) s = .next t ∧ ∃ z, t.seqOp g op = some z ∧ z.done = o.done + 1
     (o.done < aRows p → aOp p = 0 → ∃ t, steps t ∧ t.crews = s.crews ∧ t.hbm = s.hbm ∧
       (∀ k, k < 64 → acc t (64 * row + k) = 0) ∧ (∀ n, n / 64 ≠ row → acc t n = acc s n)) ∧
     (∀ w s1, o.done < aRows p → (aOp p = 1 ∨ (aOp p = 3 ∧ 2 ^ 17 + row ∉ (s.block o.block).poison)) → s.seqLoad o va 256 = (.ok w false, s1) →
       ∃ t, steps t ∧ t.crews = s1.crews ∧ t.hbm = s1.hbm ∧ (∀ n, n / 64 ≠ row → acc t n = acc s n) ∧
         (∀ k, k < 64 → acc t (64 * row + k) = BitVec.ofNat 32 (if aOp p = 1 then w / 2 ^ (32 * k) % 2 ^ 32
             else fadd32 (aRnd p) (acc s (64 * row + k)).toNat (w / 2 ^ (32 * k) % 2 ^ 32)))) ∧
     (o.done < aRows p → aOp p = 2 → isNear va = true → padBytesAt va (aBytes p) = true → (∀ y ∈ s.blocks, y.2.poison = []) →
       (nearCore o.home (va % 2 ^ 24) = o.home → s.scoredBut o va (aBytes p) = false) →
       ∃ t, steps t ∧ t.blocks = (s.nearWrite o.crew o.home (va % 2 ^ 24) v (aBytes p)).1.blocks ∧ t.hbm = s.hbm) ∧
     (∀ tg a, o.done < aRows p → aOp p = 2 → isNear va = false →
       s.translate (crewSett o.crew) o.home va (aBytes p) .write true = .ok tg → tg.place = .hbm (crewSett o.crew) a → tg.window = none →
       tg.rep = false →
       ∃ t id r, steps t ∧ t.req id = some r ∧ r.lanes.map (fun x => (x.va, x.target, x.data)) = [(va, some tg, v)] ∧ r.size = aBytes p ∧
         (⟨s.cycle + 331, 1024 * 14, .wr (crewSett o.crew) id⟩ : Timed) ∈ t.agenda ∧ t.blocks = s.blocks ∧ t.hbm = s.hbm ∧
         t.crews = s.crews) ∧
     (aRows p ≤ o.done → s.accWrites op = false →
       ∃ t z, exec (.accRowDone g op) s = .next t ∧ t.seqOp g op = some z ∧ z.state = .retired ∧ t.blocks = s.blocks ∧ t.crews = s.crews))

/-- TRANSLATION_WALK_DONE (R338, R339): a walk that an invalidation hit is walked again; one that finds a leaf, in the shared TLB or in the
tables, brings it to the core, and the waiting threads are ready again; one that meets a fault sends it to the fault unit. The fault unit
(R341 to R343): a fault that arrives takes the lowest free entry; without a service queue an open entry raises the fault interrupt; a
store of res is taken only with the entry's sequence number, 2 ends the entry with kind 0xA and its threads take the translation trap, and
1 sends the walk again, whose success frees the entry and whose failure opens it anew. TLBINV_APPLY and TLBINV_ACK (R183, R185, R339):
where a sett applies an invalidation no TLB of it keeps a translation that covers the address, and the host is sent one; the last
acknowledgement ends the invalidation, marks its lane and sets bit 0 of the result of the crew's last one. Where the rules leave a point
open it follows the model's choice: log 14, 24, 43, 51. -/
def Obligations.Translation : Prop :=
  (∀ (s : State) (n : Nat) (w : Walk), Tab.get none s.walks n = some w →
     (w.again = true → ∃ t m, exec (.translationWalkDone n) s = .next t ∧
       Tab.get none t.walks n = some { w with again := false, hit := none } ∧
       (⟨s.cycle + m, 1024 * 40, .translationWalkDone n⟩ : Timed) ∈ t.agenda ∧ t = { s with walks := t.walks, agenda := t.agenda }) ∧
     (∀ k pc m since, w.again = false → w.waiters = [.threads k pc m since] → (s.sett w.sett).missWait = [] →
       (∀ l, w.hit = some l ∨ (w.hit = none ∧ s.walk w.sett w.va = .leaf l) →
         ∃ t, exec (.translationWalkDone n) s = .next t ∧ Tab.get none t.walks n = none ∧
           (w.hit = none → entryFor w.va l ∈ (t.sett w.sett).stlb) ∧ entryFor w.va l ∈ (t.core (s.crew k).core).tlb ∧
           (∀ j ∈ lanesOf m, ((s.crew k).thread j).st = .parked → ((t.crew k).thread j).st = .ready) ∧
           (∀ j, (t.crew j).regs = (s.crew j).regs ∧ (t.crew j).preds = (s.crew j).preds) ∧ (∀ j, j ≠ k → t.crew j = s.crew j) ∧
           t.blocks = s.blocks ∧ (t.hbm = s.hbm ∧ t.hostMem = s.hostMem)) ∧
       (∀ kind level, w.hit = none → s.walk w.sett w.va = .fault kind level → (∃ j ∈ lanesOf m, ((s.crew k).thread j).st = .parked) →
         ∃ t, exec (.translationWalkDone n) s = .next t ∧ Tab.get none t.walks n = none ∧ t.crews = s.crews ∧
           (∃ a ∈ (t.sett w.sett).arrivals, a.fault.kind = kind ∧ a.fault.level = level ∧ a.fault.waiters = [.threads k pc m since]) ∧
           (t.hbm = s.hbm ∧ t.hostMem = s.hostMem)))) ∧
  (∀ (s : State) (q e v : Nat),
     let f := s.fault q e
     ((s.sett q).faultWait = [] → (s.sett q).base 5 = 0xFFFF →
       ((s.sett q).arrivals = [] → ((s.sett q).faults.any (fun x => x.2.rp && x.2.res = 0 && !x.2.pst)) = true →
         ∃ t, exec (.faultServiceCardPost q) s = .next t ∧ 1 ∈ (t.sett q).raised ∧ (t.hbm = s.hbm ∧ t.hostMem = s.hostMem)) ∧
       (∀ a, (s.sett q).arrivals = [a] → a.fault.rp = true → s.openEntry q a.fault = none → s.freeEntry q = some e →
         ∃ t, exec (.faultServiceCardPost q) s = .next t ∧ (t.sett q).arrivals = [] ∧
           t.fault q e = { a.fault with res := 0, seq := f.seq + 1, pst := false, opened := s.cycle } ∧ t.crews = s.crews)) ∧
     (f.res = 0 → bits v 58 43 = f.seq % 2 ^ 16 →
       (bits v 28 27 = 1 → ∃ t n, exec (.faultResStore q e v) s = .next t ∧ t.fault q e = { f with res := 1 } ∧
         (⟨s.cycle + n, 1024 * 41, .faultRetryWalkDone q e⟩ : Timed) ∈ t.agenda ∧ t.crews = s.crews) ∧
       (bits v 28 27 = 2 →
         (f.waiters = [] → ∃ t, exec (.faultResStore q e v) s = .next t ∧ t.fault q e = { f with kind := 0xA, res := 3, waiters := [] } ∧
           t.crews = s.crews) ∧
         (∀ k pc m since, f.waiters = [.threads k pc m since] → MayTrap k s →
           ∃ t, exec (.faultResStore q e v) s = .next t ∧ (t.crew k).handler = true ∧
             (t.crew k).trapCode = BitVec.ofNat 32 Trap.translation.code ∧ (t.crew k).trapPc = pc ∧ (t.crew k).trapLanes = some m ∧
             (t.crew k).trapInfo = BitVec.ofNat 32 e ∧ (∀ j, j ≠ k → t.crew j = s.crew j)))) ∧
     (f.res ≠ 0 ∨ bits v 58 43 ≠ f.seq % 2 ^ 16 ∨ (bits v 28 27 ≠ 1 ∧ bits v 28 27 ≠ 2) → exec (.faultResStore q e v) s = .next s) ∧
     (f.res = 1 →
       (∀ kind level, s.walk q f.va = .fault kind level →
         ∃ t, exec (.faultRetryWalkDone q e) s = .next t ∧
           t.fault q e = { f with res := 0, seq := f.seq + 1, pst := false, opened := s.cycle } ∧ t.crews = s.crews) ∧
       (∀ l tg, s.walk q f.va = .leaf l → s.applyLeaf q f.va 1 (accessOf f.access) l false = .ok tg →
         (f.waiters = [] → ∃ t, exec (.faultRetryWalkDone q e) s = .next t ∧ t.fault q e = { f with res := 3, waiters := [] } ∧
           entryFor f.va l ∈ (t.sett q).stlb ∧ t.crews = s.crews) ∧
         (∀ k pc m since, f.waiters = [.threads k pc m since] →
           ∃ t, exec (.faultRetryWalkDone q e) s = .next t ∧ t.fault q e = { f with res := 3, waiters := [] } ∧
             entryFor f.va l ∈ (t.sett q).stlb ∧ entryFor f.va l ∈ (t.core (s.crew k).core).tlb ∧
             (∀ j ∈ lanesOf m, ((s.crew k).thread j).st = .parked → ((t.crew k).thread j).st = .ready) ∧
             (∀ j, j ≠ k → t.crew j = s.crew j))))) ∧
  (∀ (s : State) (n q : Nat) (x : TlbInv), Tab.get none s.invs n = some x →
     (x.applied = [] → q ≠ 8 → ∃ t, exec (.tlbinvApply n q) s = .next t ∧ (∀ y ∈ (t.sett q).stlb, y.hits x.va = false) ∧
       (∀ g, coreSett g = q → ∀ y ∈ (t.core g).tlb, y.hits x.va = false) ∧ (∀ j, (t.crew j).regs = (s.crew j).regs) ∧
       (t.hbm = s.hbm ∧ t.hostMem = s.hostMem)) ∧
     (∃ t m, exec (.tlbinvApply n 8) s = .next t ∧ t.out = s.out ++ [.ats (crewSett x.crew) x.va] ∧
       (⟨s.cycle + m, 1024 * 43, .tlbinvAck n 8⟩ : Timed) ∈ t.agenda ∧ t = { s with out := t.out, agenda := t.agenda, draws := t.draws }) ∧
     (∀ p, p ≠ q → p ∈ x.left → exec (.tlbinvAck n q) s =
       .next { s with invs := Tab.set none s.invs n (some { x with left := x.left.filter (· != q) }) }) ∧
     (∀ r y, x.left = [q] → x.byReset = 0 → s.req x.req = some r → r.kind = .tlbinv → r.crew = x.crew → r.lanes = [y] → y.lane = x.lane →
       r.sym = none → r.phase = 1 → r.awaiting = false →
       ∃ t, exec (.tlbinvAck n q) s = .next t ∧ Tab.get none t.invs n = none ∧ t.req x.req = none ∧
         (t.crew x.crew).stores = (s.crew x.crew).stores - 1 ∧
         (t.crew x.crew).tlbinv = (if (s.crew x.crew).lastInv = x.req + 1 then (s.crew x.crew).tlbinv ||| 1 else (s.crew x.crew).tlbinv) ∧
         (∀ j, (t.crew j).regs = (s.crew j).regs ∧ (t.crew j).preds = (s.crew j).preds) ∧ (t.hbm = s.hbm ∧ t.hostMem = s.hostMem)))

/-- Messages at the home (R363, R365, R368): a GetS of a sector in I or S makes it S and sends data; an Evict is answered and takes the sharer
away; an Own of a sector in I gives it away; a write-back stores the owner's data; a put's Wr, and a Nack's returned write, stand in
memory; an InvAck is counted, and the last one frees its collector. Where the rules leave a point open it follows the model's choice:
log 13, 17. -/
def Obligations.HomeMessages : Prop :=
  ∀ (s : State) (q x core node d : Nat), sectorSett x = q → q < 8 →
    (core < 1024 → sharerOf x core = true → s.inVictims x = false → s.waitsFor core x = [] → s.dirOf x ≠ DirEntry.init →
      s.sectorState x < 2 → x % 4 < (s.dirOf x).sst.length →
      ∃ t n, exec (.gets q x core) s = .next t ∧ t.sectorState x = 1 ∧ core ∈ (t.dirOf x).names ∧
        (t.core core).arriving = (s.core core).arriving ++ [(x, s.sectorBytes x, s.sectorTags x)] ∧
        (⟨s.cycle + n, 1024 * 16, .data core x⟩ : Timed) ∈ t.agenda ∧ t.crews = s.crews ∧ (t.hbm = s.hbm ∧ t.hostMem = s.hostMem)) ∧
    (∃ t n, exec (.evict q x core) s = .next t ∧ (⟨s.cycle + n, 1024 * 16, .evack core x⟩ : Timed) ∈ t.agenda ∧
      (s.sectorState x = 1 → (s.dirOf x).coarse = false → core ∉ (t.dirOf x).names) ∧ t.crews = s.crews ∧
      (t.hbm = s.hbm ∧ t.hostMem = s.hostMem)) ∧
    (s.inVictims x = false → s.dirOf x ≠ DirEntry.init → s.sectorState x = 0 → x % 4 < (s.dirOf x).sst.length →
      ∃ t, exec (.own q x node) s = .next t ∧ t.sectorState x = 2 ∧ (t.dirOf x).own = node ∧
        t.out = (if node = 1 then s.out ++ [.cxl q 4 (sectorAddr x) (s.ownerBytes 1 x)] else s.out) ∧ t.crews = s.crews ∧ (t.hbm = s.hbm ∧ t.hostMem = s.hostMem)) ∧
    (2 ≤ s.sectorState x →
      ∃ t, exec (.wb q x node d) s = .next t ∧ t.hbm = Memory.writeN s.hbm (hbmAddr q (sectorAddr x)) 64 d ∧ t.sectorState x < 2 ∧
        t.hostMem = s.hostMem ∧ t.crews = s.crews) ∧
    (∀ id r y tg a, s.req id = some r → r.kind = .store → r.agent = 0 → r.lanes = [y] → y.done = false → y.target = some tg →
      tg.place = .hbm q a → tg.rep = false → tg.ks = false → tg.sh = false → tg.window = none → r.phase = 2 → r.awaiting = false →
      s.lateKind r tg = none → inContext a = false → (s.sett q).inFaultBuffer a = false →
      (∀ z ∈ sectorsIn q a r.size, s.sectorState z = 0 ∧ s.inVictims z = false) →
      (∃ t, exec (.wr q id) s = .next t ∧ t.hbm = Memory.writeN s.hbm (hbmAddr q a) r.size y.data ∧ t.req id = none ∧
        t.hostMem = s.hostMem ∧ t.crews = s.crews ∧ t.blocks = s.blocks) ∧
      (∃ t, exec (.nack q id) s = .next t ∧ t.hbm = Memory.writeN s.hbm (hbmAddr q a) r.size y.data ∧ t.req id = none ∧
        t.hostMem = s.hostMem ∧ t.crews = s.crews ∧ t.blocks = s.blocks)) ∧
    (∀ c k, Tab.get none (s.sett q).collectors c = some k →
      (k.got + k.acks.headD 0 < k.expected → ∃ t, exec (.invack q c) s = .next t ∧
        Tab.get none (t.sett q).collectors c = some { k with got := k.got + k.acks.headD 0, acks := k.acks.drop 1 } ∧
        t = { s with setts := t.setts }) ∧
      (k.expected ≤ k.got + k.acks.headD 0 → ∃ t, exec (.invack q c) s = .next t ∧ Tab.get none (t.sett q).collectors c = none))

/-- Messages at sharers and owners (R364, R366, R367, R375): an Inv takes the named cores' sectors from S to I and from IS to ISI and is
acknowledged; an EvAck ends SI; data brings IS to S and ISI to I; a port in O answers a forwarded GetS with data and a write-back, and
a forwarded Own with a write-back; the host is asked with BISnpData, the read waiting for its answer, or with BISnpInv; it returns a
forwarded write, and is told of its write-back with Cmp. Memory and crews stay as they are. Where the rules leave a point open it follows the model's choice: log 40. -/
def Obligations.SharerMessages : Prop :=
  ∀ (s : State) (x core node c id : Nat),
    let kept (t : State) : Prop := t.hbm = s.hbm ∧ t.hostMem = s.hostMem ∧ t.crews = s.crews ∧ t.blocks = s.blocks
    let at_ (t : State) (g y : Nat) : SectorSt := Tab.get SectorSt.i (t.core g).sectors y
    (∀ k, Tab.get none (s.sett (sectorSett x)).collectors c = some k → node < 16 →
      ∃ t, exec (.inv node x c) s = .next t ∧ (⟨s.cycle + 60, 1024 * 14, .invack (sectorSett x) c⟩ : Timed) ∈ t.agenda ∧ kept t ∧
        (∀ g ∈ k.names, coreSett g = node - 2 → ∀ y ∈ k.sectors,
          (at_ s g y = .s → at_ t g y = .i) ∧ (at_ s g y = .is → at_ t g y = .isi)) ∧
        (∀ g y, g ∉ k.names ∨ y ∉ k.sectors → at_ t g y = at_ s g y)) ∧
    (agentLink core x = none → at_ s core x = .si → s.waitsFor core x = [] →
      ∃ t, exec (.evack core x) s = .next t ∧ at_ t core x = .i ∧ t = { s with cores := t.cores }) ∧
    (agentLink core x = none → s.waitsFor core x = [] →
      (at_ s core x = .is → ((s.core core).line (lineOf (sectorSett x) (sectorAddr x))).isSome = true →
        ∃ t, exec (.data core x) s = .next t ∧ at_ t core x = .s ∧ kept t) ∧
      (at_ s core x = .isi → ∃ t, exec (.data core x) s = .next t ∧ at_ t core x = .i ∧ kept t)) ∧
    (s.owns 1 x = true →
      (∃ t, exec (.fwdGets 1 x core) s = .next t ∧ t.out = s.out ++ [.cxl (sectorSett x) 5 (sectorAddr x) core] ∧ kept t ∧
        (t.dirOf x).queue = (x % 4, .gets (sectorSett x) x core) :: (s.dirOf x).queue ∧ t = { s with setts := t.setts, out := t.out }) ∧
      exec (.fwdOwn 1 x c) s = .next (s.send (.cxl (sectorSett x) 6 (sectorAddr x) c))) ∧
    (s.owns node x = true → node ≠ 1 →
      (∃ t, exec (.fwdGets node x core) s = .next t ∧ (⟨s.cycle + 135, 1024 * 16, .data core x⟩ : Timed) ∈ t.agenda ∧
        (⟨s.cycle + 75, 1024 * 14, .wb (sectorSett x) x node (s.sectorBytes x)⟩ : Timed) ∈ t.agenda ∧ kept t) ∧
      (∃ t, exec (.fwdOwn node x c) s = .next t ∧
        (⟨s.cycle + 75, 1024 * 14, .wb (sectorSett x) x node (s.sectorBytes x)⟩ : Timed) ∈ t.agenda ∧ kept t)) ∧
    (s.owns node x = false → exec (.fwdOwn node x c) s = .next s) ∧
    (∀ r y tg q a, s.req id = some r → r.lanes = [y] → y.target = some tg → tg.place = .hbm q a →
      ∃ t, exec (.fwdWr 1 id) s = .next t ∧ (⟨s.cycle + 75, 1024 * 14, .nack q id⟩ : Timed) ∈ t.agenda ∧ t = { s with agenda := t.agenda }) ∧
    exec (.wback 1 x) s = .next (s.send (.cxl (sectorSett x) 7 (sectorAddr x) 0)) ∧ (node ≠ 1 → exec (.wback node x) s = .next s)

/-- EXPORT_REVOKE (R352): once no line of the region has a sharer and no acknowledgement is awaited, every entry that imports the export
is stale and the export entry is free, its other bits as they were. Replicated pages (R356, R357): a store that stands at its sequencer
gets the area's next number, is performed there and goes to every other member; a member applies the update with its next number,
discards an earlier one and keeps a later one. The host's own accesses (R374, R375, R382, R435): HOST_SNOOP takes a line back from a
port; a host read asks the home for ownership; a host write of a sector without directory state stands in memory, and the write-back of
one that the host owns ends its ownership; a write of the context area is dropped; from the Recall step of a quiesce on they are held, but
for a write-back, and in suspension a read is answered and a write has no effect. Where the rules leave a point open it follows the model's choice: log 20, 60,
75, 76. -/
def Obligations.SharedRegions : Prop :=
  (∀ (s : State) (q e : Nat),
     let at_ := (s.sett q).base 4 + 64 * e
     let w := s.hbmRead q at_ 64
     (s.sett q).base 4 ≠ 0 → e < 512 → bits w 1 0 = 2 → s.sharedIn q (bits w 511 448) (bits w 447 384) = [] →
     s.acksIn q (bits w 511 448) (bits w 447 384) = false →
     ∃ t, exec (.exportRevoke q e) s = .next t ∧ t.hbm = Memory.writeN s.hbm (hbmAddr q at_) 1 (w % 256 - w % 4) ∧
       bits (t.hbmRead q at_ 64) 1 0 = 0 ∧
       (∀ p n, let x := windowOf (s.sett p) n
         x.st = 1 → x.handle / 2 ^ 52 = 0 → x.handle / 2 ^ 49 % 8 = q → bits x.handle 48 40 = e →
         windowOf (t.sett p) n = { x with st := 2 }) ∧
       t.hostMem = s.hostMem ∧ t.crews = s.crews ∧ t.blocks = s.blocks) ∧
  (∀ (s : State) (q a : Nat),
     (∀ id r x tg own pa, s.req id = some r → r.kind = .store → r.lanes = [x] → x.target = some tg → tg.place = .hbm own pa →
       own = crewSett r.crew → own ≠ q → (s.area own a).seqr = q → x.out = true → x.free = true → x.done = false → x.wait = false →
       x.due ≤ s.cycle → s.depsMet r = true → s.sequencerReady q a = true → s.lateKind r tg = none →
       let off := pa - (s.area own a).base
       let at_ := (s.area q a).base + off
       inContext at_ = false → (s.sett q).inFaultBuffer at_ = false → (∀ y ∈ sectorsIn q at_ r.size, s.sectorState y = 0) →
       ∃ t, exec (.replicaWrite q a id) s = .next t ∧ t.hbm = Memory.writeN s.hbm (hbmAddr q at_) r.size x.data ∧
         (t.area q a).next = (s.area q a).next + 1 ∧ t.hostMem = s.hostMem ∧ t.crews = s.crews ∧ t.blocks = s.blocks ∧
         (∀ m, m < 8 → (s.area q a).members.testBit m = true → m ≠ q → ∃ u ∈ (t.area m a).pending,
           u.number = (s.area q a).next ∧ u.off = off ∧ u.bytes = r.size ∧ u.value = x.data ∧
           (⟨s.cycle + 60, 1024 * 18, .replicaUpdate m a u.number⟩ : Timed) ∈ t.agenda)) ∧
     (∀ n u, (s.area q a).pending.find? (fun v => v.number = n) = some u →
       let at_ := (s.area q a).base + u.off
       (n < (s.area q a).next →
         ∃ t, exec (.replicaUpdate q a n) s = .next t ∧ t = { s with setts := t.setts } ∧ (t.area q a).next = (s.area q a).next ∧
           (∀ v ∈ (t.area q a).pending, v.number ≠ n)) ∧
       ((s.area q a).next < n → (s.area q a).v = true →
         ∃ t, exec (.replicaUpdate q a n) s = .next t ∧ t = { s with agenda := t.agenda } ∧
           (⟨s.cycle + 1, 1024 * 18, .replicaUpdate q a n⟩ : Timed) ∈ t.agenda) ∧
       (n = (s.area q a).next → (s.area q a).v = true → inContext at_ = false → (s.sett q).inFaultBuffer at_ = false →
         (∀ y ∈ sectorsIn q at_ u.bytes, s.sectorState y = 0) → (∀ r, s.req (u.writer / 64) = some r → crewSett r.crew ≠ q) →
         ∃ t, exec (.replicaUpdate q a n) s = .next t ∧ t.hbm = Memory.writeN s.hbm (hbmAddr q at_) u.bytes u.value ∧
           (t.area q a).next = n + 1 ∧ (∀ v ∈ (t.area q a).pending, v.number ≠ n) ∧ t.hostMem = s.hostMem ∧ t.crews = s.crews ∧
           t.blocks = s.blocks))) ∧
  (∀ (s : State) (q line kind addr d : Nat),
     let a := addr / 64 * 64 % 2 ^ 37
     exec (.hostSnoop q line) s = .next { s with portLines := s.portLines.filter (fun p => p != (q, line)) } ∧
     (4 ≤ s.hib.step → (kind = 0 ∨ s.owns 1 (sectorOf q a) = false) →
       ∃ t, exec (.hostMemRequest q kind addr d) s = .next t ∧ t = { s with agenda := t.agenda } ∧
       (⟨s.cycle + 64, 1024 * 14, .hostMemRequest q kind addr (d % 2 ^ 513)⟩ : Timed) ∈ t.agenda) ∧
     (s.hib.step < 4 → (s.sett q).span = .suspension →
       exec (.hostMemRequest q 0 addr d) s = .next (s.send (.cxl (sectorSett (sectorOf q a)) 4 (sectorAddr (sectorOf q a))
         (s.ownerBytes 1 (sectorOf q a)))) ∧
       (kind ≠ 0 → exec (.hostMemRequest q kind addr d) s = .next s)) ∧
     (s.hib.step < 4 → (s.sett q).span ≠ .suspension →
       (∃ t, exec (.hostMemRequest q 0 addr d) s = .next t ∧ t = { s with agenda := t.agenda } ∧
         (⟨s.cycle, 1024 * 14, .own q (sectorOf q a) 1⟩ : Timed) ∈ t.agenda) ∧
       (contextArea a = true → kind ≠ 0 → exec (.hostMemRequest q kind addr d) s = .next s) ∧
       (contextArea a = false → (s.sett q).inFaultBuffer a = false → s.ksAt q a 64 = false →
         (s.sectorState (sectorOf q a) = 0 → (∀ y ∈ sectorsIn q a 64, s.sectorState y = 0) →
           ∃ t, exec (.hostMemRequest q 1 addr d) s = .next t ∧ t.hbm = Memory.writeN s.hbm (hbmAddr q a) 64 (d % 2 ^ 512) ∧
             t.hostMem = s.hostMem ∧ t.crews = s.crews ∧ t.blocks = s.blocks) ∧
         (2 ≤ s.sectorState (sectorOf q a) → (s.dirOf (sectorOf q a)).own = 1 → kind ≠ 0 →
           ∃ t, exec (.hostMemRequest q kind addr d) s = .next t ∧ t.hbm = Memory.writeN s.hbm (hbmAddr q a) 64 (d % 2 ^ 512) ∧
             t.hostMem = s.hostMem ∧ t.crews = s.crews ∧ t.blocks = s.blocks ∧
             (⟨s.cycle, 1024 * 14, .wb q (sectorOf q a) 1 (t.hbmRead q a 64)⟩ : Timed) ∈ t.agenda))))

/-- Command records (R372, R311, R313, R351): a command that is turned away ends with its status and no effect; one that nothing turns
away has its effect and ends with status 0, or with the status of the table: SETBASE, REFRESH, which reads the kept blocks of a subtree
again, QSTATUS, QRESUME, IMPORT, UNIMPORT and its completion, a reserved op. The host's registers (R371, R313): a doorbell sets its
queue's tail, or stops the queue with error 2, and a closed queue takes none; a bit written as one to RETRYCNT is cleared; CMDBASE,
CMDSIZE and CMDTAIL take what is written. Where the rules leave a point open it follows the model's choice: log 23, 72, 74, 124. -/
def Obligations.HostInterface : Prop :=
  (∀ (s : State) (q : Nat), (s.sett q).cmdBusy = true →
     (∀ st, s.commandBar q = some st → ∀ e ∈ [Instr.setbase q, .refresh q, .qstatus q, .qresume q, .import q, .unimport q],
       ∃ t, exec e s = .next t ∧ Answered q st 0 s t ∧ t.hbm = s.hbm ∧ (t.sett q).setbase = (s.sett q).setbase ∧
         (t.sett q).windows = (s.sett q).windows) ∧
     (s.commandBar q = none →
       let a := comArg0 (s.command q)
       let v := comArg1 (s.command q)
       (baseOk a v = false → ∃ t, exec (.setbase q) s = .next t ∧ Answered q 2 0 s t ∧ (t.sett q).setbase = (s.sett q).setbase) ∧
       (baseOk a v = true → (s.sett q).span ≠ .startUp →
         ∃ t, exec (.setbase q) s = .next t ∧ Answered q 3 0 s t ∧ (t.sett q).setbase = (s.sett q).setbase) ∧
       (baseOk a v = true → (s.sett q).span = .startUp →
         ∃ t, exec (.setbase q) s = .next t ∧ Answered q 0 0 s t ∧ (t.sett q).base a = v ∧
           (∀ j, j ≠ a → (t.sett q).base j = (s.sett q).base j) ∧ t.hbm = s.hbm) ∧
       (a % 128 = 0 → v = 0 →
         ∃ t, exec (.refresh q) s = .next t ∧ Answered q 0 0 s t ∧ t.hbm = s.hbm ∧
           ∀ b, b ≠ 0 → Tab.get 0 (s.sett q).rcbs b ≠ 0 →
             Tab.get 0 (t.sett q).rcbs b = if s.inSubtree q a 8 b then s.hbmRead q b 128 + 1 else Tab.get 0 (s.sett q).rcbs b) ∧
       (a < 16384 → v = 0 →
         (∃ t, exec (.qstatus q) s = .next t ∧ t.hbm = s.hbm ∧
           Answered q 0 ((s.queue q a).errCode + (if qErr (s.queueWord q a) then 256 else 0) + (if qEn (s.queueWord q a) then 512 else 0)) s t) ∧
         (∃ t, exec (.qresume q) s = .next t ∧ Answered q 0 0 s t ∧ qErr (t.queueWord q a) = false ∧ (t.queue q a).errCode = 0 ∧
           (∀ j, j ≠ hbmAddr q (queueAddr (s.sett q) a) → Memory.read t.hbm j = Memory.read s.hbm j) ∧
           (⟨s.cycle + 1, 1024 * 80, .cardHeadCheck q a⟩ : Timed) ∈ t.agenda)) ∧
       (bits v 127 13 = 0 → bits v 12 8 < 18 → a % 2 ^ 24 = 0 →
         (∀ u, s.exportAnswer a (bits v 12 8) = (none, u) →
           ∃ t, exec (.import q) s = .next t ∧ Answered q 4 0 s t ∧ windowOf (t.sett q) (v % 256) = Window.init ∧ t.hbm = s.hbm) ∧
         (∀ size r p x u, s.exportAnswer a (bits v 12 8) = (some (size, r, p, x), u) →
           ∃ t, exec (.import q) s = .next t ∧ Answered q 0 0 s t ∧ t.hbm = s.hbm ∧
             windowOf (t.sett q) (v % 256) = { handle := a, size := size, link := if a / 2 ^ 52 = 0 then 0 else bits v 12 8, r := r, p := p,
                                               a := x, st := 1 })) ∧
       (a < 256 → v = 0 →
         ∃ t, exec (.unimport q) s = .next t ∧ t.hostMem = s.hostMem ∧ t.hbm = s.hbm ∧ (t.sett q).cmdBusy = true ∧
           windowOf (t.sett q) a = { windowOf (s.sett q) a with st := 2, closing := true, closedAt := s.cycle } ∧
           (⟨s.cycle + 1, 1024 * 63, .unimportComplete q a⟩ : Timed) ∈ t.agenda)) ∧
     (∀ w, (windowOf (s.sett q) w).closing = true → s.usesWindow q w = false →
       ∃ t, exec (.unimportComplete q w) s = .next t ∧ Answered q 0 0 s t ∧ windowOf (t.sett q) w = Window.init ∧ t.hbm = s.hbm) ∧
     ∃ t, exec (.unknownOp q) s = .next t ∧ Answered q (if (s.sett q).authenticated then 1 else 4) 0 s t ∧ t.hbm = s.hbm) ∧
  (∀ (s : State) (q n v : Nat),
     (s.intake q = true → n < 16384 →
       let w := s.queueWord q n
       (qSrc w = false → bits w 8 4 ≤ 16 → (v % 2 ^ 32 + 2 ^ 32 - qHead w) % 2 ^ 32 ≤ qDepth w →
         (qClosed w = false →
           ∃ t, exec (.qdbDoorbell q n v) s = .next t ∧ exec (.registerWrite q (0x100000 + 8 * n) (v % 2 ^ 64)) s = .next t ∧
             t.hbm = Memory.writeN s.hbm (hbmAddr q (queueAddr (s.sett q) n + 44)) 4 (v % 2 ^ 32) ∧
             t = { s with hbm := t.hbm, agenda := t.agenda } ∧ (⟨s.cycle + 1, 1024 * 80, .cardHeadCheck q n⟩ : Timed) ∈ t.agenda) ∧
         (qClosed w = true → exec (.qdbDoorbell q n v) s = .next s)) ∧
       (qSrc w = true ∨ 16 < bits w 8 4 ∨ qDepth w < (v % 2 ^ 32 + 2 ^ 32 - qHead w) % 2 ^ 32 →
         ∃ t, exec (.qdbDoorbell q n v) s = .next t ∧ qErr (t.queueWord q n) = true ∧ (t.queue q n).errCode = 2 ∧
           (∀ j, j ≠ hbmAddr q (queueAddr (s.sett q) n) → Memory.read t.hbm j = Memory.read s.hbm j) ∧
           t = { s with hbm := t.hbm, setts := t.setts })) ∧
     (∃ t, exec (.retrycntClear q v) s = .next t ∧
       (t.sett q).retryCnt = (BitVec.ofNat 64 (s.sett q).retryCnt &&& ~~~BitVec.ofNat 64 v).toNat ∧ t = { s with setts := t.setts }) ∧
     (∃ t, exec (.registerWrite q 0 v) s = .next t ∧ (t.sett q).cmdBase = v % 2 ^ 64 / 64 * 64 ∧ t = { s with setts := t.setts }) ∧
     (v ≤ 12 → ∃ t, exec (.registerWrite q 8 v) s = .next t ∧ (t.sett q).cmdSize = v ∧ t = { s with setts := t.setts }) ∧
     (∃ t, exec (.registerWrite q 0x10 v) s = .next t ∧ (t.sett q).cmdTail = v % 2 ^ 64 ∧
       t = { s with setts := t.setts, agenda := t.agenda }))

/-- Heads and starts (R312, R316, R318, R320): a poll looks at the head of every enabled queue; a head whose checks hold and whose
dependence counter has reached its value starts its card, one that fails a check stops the queue with error 3, and a queue that is no
longer enabled gives up what was noted of it; a card with gangs becomes a running launch, and one with GEN waits for the others and
then steps the device generation. Where the rules leave a point open it follows the model's choice: log 23, 77. -/
def Obligations.CardStarts : Prop :=
  ∀ (s : State) (q n : Nat),
    let w := s.queueWord q n
    let x := s.queue q n
    let c := s.physRead q (cardAddr w (qHead w)) 64
    (∃ t, exec (.dependencePoll q) s = .next t ∧ t = { s with agenda := t.agenda } ∧
      (∀ m ∈ s.enabledQueues q, (⟨s.cycle, 1024 * 80, .cardHeadCheck q m⟩ : Timed) ∈ t.agenda) ∧ ∃ y ∈ t.agenda, y.ev = .dependencePoll q) ∧
    ((∀ l ∈ (s.sett q).launches, l.ended < l.gangs) →
      (qEn w = false → ∃ t, exec (.cardHeadCheck q n) s = .next t ∧
        t.queue q n = { x with admitted := false, checked := false, dep := false } ∧ (t.sett q).genHold ≠ some n ∧
        t = { s with setts := t.setts }) ∧
      (qEn w = true → qErr w = false → s.intake q = true → x.admitted = true → x.launch = none → qUsed w ≠ 0 →
        let starts (d : Bool) : Prop := ∃ t, exec (.cardHeadCheck q n) s = .next t ∧ t.queue q n = { x with checked := true, dep := d } ∧
          (t.hbm = s.hbm ∧ t.hostMem = s.hostMem) ∧ t.crews = s.crews ∧
          (d = true → (⟨s.cycle, 1024 * 82, .cardStart q n⟩ : Timed) ∈ t.agenda)
        let fails : Prop := ∃ t, exec (.cardHeadCheck q n) s = .next t ∧ qErr (t.queueWord q n) = true ∧ (t.queue q n).errCode = 3 ∧
          t = { s with hbm := t.hbm, setts := t.setts }
        (x.checked = true → ∀ d, s.dependenceMet q c = some d → starts d) ∧
        (x.checked = false →
          (cardOk c n = false → fails) ∧
          (∀ k, cardOk c n = true → s.engineRead q (cKdesc c) 64 = some k →
            (kdescOk k = false → fails) ∧ (∀ d, kdescOk k = true → s.dependenceMet q c = some d → starts d))))) ∧
    (qEn w = true → qErr w = false → s.intake q = true → x.admitted = true → x.checked = true → x.dep = true → x.launch = none → qUsed w ≠ 0 →
      s.leadHolds q n = false → ((s.sett q).genHold = none ∨ (s.sett q).genHold = some n) →
      (cGen c = true → (s.sett q).launches ≠ [] →
        ∃ t, exec (.cardStart q n) s = .next t ∧ (t.sett q).genHold = some n ∧ (t.sett q).launches = (s.sett q).launches ∧
          t = { s with setts := t.setts }) ∧
      (∀ k r, s.engineRead q (cKdesc c) 64 = some k → s.region q (qRcb w) = some r → cGangs c ≠ 0 →
        (cGen c = true → (s.sett q).launches = []) →
        ∃ t, exec (.cardStart q n) s = .next t ∧ (∃ l : Launch, (t.sett q).launches = (s.sett q).launches ++ [l] ∧ l.card = c ∧ l.queue = n ∧
            l.gangs = cGangs c ∧ l.placed = 0 ∧ l.ended = 0 ∧ l.kdesc = k ∧ (t.queue q n).launch = some l.index) ∧
          ((s.sett q).span = .startUp → (t.sett q).span = .service) ∧
          (cGen c = true → (t.sett q).devgen = if (s.sett q).devgen = 65535 then 1 else (s.sett q).devgen + 1) ∧
          (cGen c = false → (t.sett q).devgen = (s.sett q).devgen ∧ t.crews = s.crews) ∧ (t.hbm = s.hbm ∧ t.hostMem = s.hostMem)))

/-- Placement (R319, R321, R326, R327): where nothing waits nothing is placed; the first candidate with room, a gang that is new, takes
the lowest free launch record, its blocks stand on their cores, and every thread of its crews starts at the kernel's entry with the
parameter words in registers 0 to 5; a new gang's priority is its region's raised by one for each full 2^20 cycles that it waits, up to 7,
and ageing has the choice made anew. Swap-outs and clusters (R323, R328): a candidate without room for 2^16 cycles has one gang's
swap-out begin; a free cluster goes to the stage that R323 names, and the next interval is 65,536 cycles on. Where the rules leave a point
open it follows the model's choice: log 78, 79, 81, 82. -/
def Obligations.GangsAndClusters : Prop :=
  (∀ (s : State) (q : Nat),
     let u := s.settleClusters q
     (s.hib.step = 0 → (s.sett q).span ≠ .suspension →
       (u.candidates q = [] → ∃ t, exec (.gangPlacement q) s = .next t ∧ t = { u with agenda := t.agenda }) ∧
       (∀ c v cores i, firstCand ((u.candidates q).filter (fun x => (u.place? q x).isSome)) = some c → u.place? q c = some (v, cores) →
         (u.revokeFor c.launch.kdesc cores).1 = false → c.swapped = false → c.gangRec = none → (u.sett q).freeRecord = some i →
         ∃ t, exec (.gangPlacement q) s = .next t ∧ (t.record q i).st = .placed ∧ (t.record q i).card = c.launch.card ∧
           (t.record q i).gang = c.launch.placed ∧ (t.record q i).vclus = v ∧
           ∀ b g, cores[b]? = some g → b < 4 →
             (t.block (blockKey q i b)).live = true ∧ (t.block (blockKey q i b)).core = g ∧
             (t.block (blockKey q i b)).readyAt = s.cycle + 32 ∧
             ∀ j l, j < kCrews c.launch.kdesc → l < 32 →
             let k := crewKey (blockKey q i b) j
             (t.crew k).live = true ∧ (t.crew k).core = g ∧
             ((t.crew k).thread l).pc = BitVec.ofNat 64 (kEntry c.launch.kdesc) ∧ ((t.crew k).thread l).st = .ready ∧
             ∀ r, r < 6 → ((t.crew k).slot r l).val = BitVec.ofNat 32 (c.launch.card / 2 ^ (320 + 32 * r)))) ∧
     (∀ c ∈ s.candidates q, c.gangRec = none → c.prio = min 7 (c.launch.region.prio + (s.cycle - c.since) / 2 ^ 20)) ∧
     (∃ t, exec (.priorityAgeing q) s = .next t ∧ t = { s with agenda := t.agenda } ∧ ∃ y ∈ t.agenda, y.ev = .gangPlacement q)) ∧
  (∀ (s : State) (q : Nat),
     (∀ c r a, s.hib.step = 0 → (s.candidates q).filter (s.wantsRoom q) = [c] → c.swapDue ≤ s.cycle →
       (∀ w ∈ (s.sett q).swaps, w.candidate ≠ some c.name) → s.victimFor q c = some r →
       (s.sett q).contextRoom (s.imageBytes q r) = some a →
       ∃ t, exec (.swapOutDecision q) s = .next t ∧
         (t.sett q).swaps = (s.sett q).swaps ++ [{ gangRec := r, step := .stop, started := s.cycle, image := a, size := s.imageBytes q r,
                                                   candidate := some c.name }] ∧
         (t.record q r).image = a ∧
         (⟨s.cycle, 1024 * 87, .swapOutStop q r⟩ : Timed) ∈ t.agenda ∧ t.crews = s.crews ∧ (t.hbm = s.hbm ∧ t.hostMem = s.hostMem)) ∧
     (∃ t, exec (.clusterReallocation q) s = .next t ∧ (⟨s.cycle + 65536, 1024 * 88, .clusterReallocation q⟩ : Timed) ∈ t.agenda ∧
       (t.hbm = s.hbm ∧ t.hostMem = s.hostMem) ∧ t.crews = s.crews ∧ t.blocks = s.blocks ∧
       (∀ n v w, (s.sett q).span ≠ .suspension → (∀ y, y < 32 → ((s.sett q).cluster y).leaving = false) →
         (∀ y m, y < 32 → ((s.sett q).cluster y).holder = some m → qUsed (s.queueWord q m) ≠ 0) →
         v < w → w < 32 → ((s.sett q).cluster v).holder = none → ((s.sett q).cluster w).holder = none →
         (∀ y, y < v → ((s.sett q).cluster y).holder ≠ none) → s.grantee q = some n →
         ((t.sett q).cluster v).holder = some n ∧ ∀ y, y < 32 → y ≠ v → (t.sett q).cluster y = (s.sett q).cluster y)))

/-- Ends (R177, R236, R321, R428): a finished crew ends and its registers are gone; with a block's last crew the block has ended and its
arrays are free; with a gang's last crew the gang's record is free and its blocks stand no more; a relaunched gang's recovery span ends
once it has run for its catch-up. Where the rules leave a point open it follows the model's choice: log 71, 81. -/
def Obligations.CrewEnds : Prop :=
  ∀ (s : State) (k q r : Nat),
    ((s.crew k).finished = true → (s.crew k).stopped = false → (s.crew k).leases = [] →
      let mate : Prop := ∃ i, i < 32 ∧ crewKey (crewBlock k) i ≠ k ∧ (s.crew (crewKey (crewBlock k) i)).live = true
      ∃ t, exec (.crewEnd k) s = .next t ∧ t.crew k = Crew.init ∧
        ((∃ j ∈ s.gangCrews (crewSett k) (crewRec k), j ≠ k) →
          (∀ j, j ≠ k → t.crew j = s.crew j) ∧ t.setts = s.setts ∧ (t.hbm = s.hbm ∧ t.hostMem = s.hostMem) ∧
          (mate → t.blocks = s.blocks) ∧ (¬ mate → (t.block (crewBlock k)).ended = true ∧ ∀ b, b ≠ crewBlock k → t.block b = s.block b)) ∧
        ((∀ j ∈ s.gangCrews (crewSett k) (crewRec k), j = k) → Tab.wf LaunchRec.init (s.sett (crewSett k)).records = true →
          (t.record (crewSett k) (crewRec k)).st = .free ∧
          ∀ b, b < 4 → (t.block (blockKey (crewSett k) (crewRec k) b)).live = false)) ∧
    (let x := s.record q r
     x.recov = true → x.st = .placed → x.restoring = 0 → (∀ w ∈ (s.sett q).swaps, w.gangRec ≠ r) →
     x.catch_ ≤ x.ran + (s.cycle - x.runFrom) →
      ∃ t, exec (.relaunchCatchupEnd q r) s = .next t ∧ t.record q r = { x with gt := false, recov := false, catch_ := 0 } ∧
        t = { s with setts := t.setts })

/-- The steps of a swap-out (R383, R384, R386, R387), each beginning the next: Stop stops the gang's crews; Drain ends when nothing of
the gang is on its way; Close when the strike windows have closed; the image is written; then the gang's record is marked swapped and
its blocks stand no more. A restored block's accumulator rows hold what the image held, and with the last block the image's room is free
(R391). Where the rules leave a point open it follows the model's choice: log 82, 83, 85, 127. -/
def Obligations.SwapSteps : Prop :=
  ∀ (s : State) (q r : Nat) (w : Swap),
    (s.swapAt q r .stop = some w →
      ∃ t, exec (.swapOutStop q r) s = .next t ∧ (∀ k ∈ s.gangCrews q r, (t.crew k).stopped = true) ∧
        (t.swapAt q r .drain).isSome = true ∧ (∀ k, (t.crew k).regs = (s.crew k).regs ∧ (t.crew k).preds = (s.crew k).preds) ∧
        (⟨s.cycle + 2, 1024 * 87, .swapOutDrainDone q r⟩ : Timed) ∈ t.agenda) ∧
    (s.swapAt q r .drain = some w →
      (s.drained q r = true →
        ∃ t, exec (.swapOutDrainDone q r) s = .next t ∧ (t.swapAt q r .close).isSome = true ∧ t.crews = s.crews ∧
          (t.hbm = s.hbm ∧ t.hostMem = s.hostMem) ∧
          (⟨s.cycle + (s.closeAt q r - s.cycle), 1024 * 87, .swapOutCloseDone q r⟩ : Timed) ∈ t.agenda) ∧
      (s.drained q r = false → ∃ t, exec (.swapOutDrainDone q r) s = .next t ∧ t = { s with agenda := t.agenda } ∧
        (⟨s.cycle + 1, 1024 * 87, .swapOutDrainDone q r⟩ : Timed) ∈ t.agenda)) ∧
    (s.swapAt q r .close = some w → (∀ g ∈ s.gangCores q r, (s.core g).restoring = none) → s.drained q r = true → s.closeAt q r ≤ s.cycle →
      ∃ t, exec (.swapOutCloseDone q r) s = .next t ∧ (t.swapAt q r .write).isSome = true ∧
        (∃ d, (⟨s.cycle + d, 1024 * 87, .swapOutImageWritten q r⟩ : Timed) ∈ t.agenda) ∧ (t.hbm = s.hbm ∧ t.hostMem = s.hostMem)) ∧
    (s.swapAt q r .write = some w →
      ∃ t, exec (.swapOutImageWritten q r) s = .next t ∧ (t.swapAt q r .free).isSome = true ∧ t.hbm = (s.writeImage q r w.image w.size).hbm ∧
        t.crews = s.crews ∧ (⟨s.cycle + 32, 1024 * 87, .swapOutFree q r⟩ : Timed) ∈ t.agenda) ∧
    (s.swapAt q r .free = some w →
      ∃ t, exec (.swapOutFree q r) s = .next t ∧ (t.record q r).st = .swapped ∧ (t.record q r).waitFrom = s.cycle ∧
        (∀ b, b < 4 → (t.block (blockKey q r b)).live = false) ∧ ∀ y ∈ (t.sett q).swaps, y.gangRec ≠ r) ∧
    (∀ b, b < 4 → let k := blockKey q r b
      let x := s.record q r
      let a := x.image + s.imageRead q (x.image + 88 + 8 * blockId k) 8
      r < 2048 → (s.block k).live = true → x.restoring ≠ 0 → x.image ≠ 0 → (s.readPoison q a x.kdesc).2 = false →
      ∃ t, exec (.swapInRestoreDone k) s = .next t ∧ (t.record q r).restoring = x.restoring - 1 ∧
        (∀ i, i < 64 * kAccum x.kdesc → Tab.get 0 (t.block k).acc i = BitVec.ofNat 32 (s.imageRead q (a + oAccum x.kdesc + 4 * i) 4)) ∧
        (x.restoring = 1 → (t.record q r).image = 0))

/-- REED_REPORT (R411, R416, R419): a core's first report of an event takes a record with vector 2, and the core restores for at least
32 cycles; the sixteenth event within 2^24 cycles fences it. RECOVERY_SPAN_END (R420): each cycle in which a restored core issues counts,
the last one but one sets the event that ends the span. Scrub and calibration (R423, R424, R199, R432, R433): a scrub that finds nothing
changes nothing, a corrected error is reported, a sector of HBM that cannot be corrected is poisoned and reported; between two array steps
a calibrated array is retired exactly where its converter drifts, and the pause of an array that has gone 2^37 cycles without one while an
operation runs puts the steps of running operations 512 cycles off; within an array step both wait a cycle. Where the rules leave a point
open it follows the model's choice: log 29, 87, 88, 130. -/
def Obligations.Strikes : Prop :=
  (∀ (s : State) (g n : Nat),
     ((s.core g).fenced = false → s.strikeEvent (coreDie g) = none → s.cycle ∉ (s.core g).strikes →
       let recent := (s.core g).strikes.filter (fun t => decide (s.cycle < t + 2 ^ 24))
       (recent.length < 15 →
         ∃ t e, exec (.reedReport g) s = .next t ∧ (t.core g).restoring = some e ∧ s.cycle + 32 ≤ e ∧
           (t.core g).strikes = s.cycle :: recent ∧ (t.core g).fenced = false ∧
           (⟨e, 1024 * 2, .rollbackRestoreDone g⟩ : Timed) ∈ t.agenda ∧ t.crews = s.crews ∧ t.blocks = s.blocks ∧ t.hostMem = s.hostMem ∧
           (t.sett (coreSett g)).reportSeq = (s.sett (coreSett g)).reportSeq + 1 ∧
           (t.sett (coreSett g)).raised = (s.sett (coreSett g)).raised ++ [2]) ∧
       (15 ≤ recent.length → ∃ t, exec (.reedReport g) s = .next t ∧ (t.core g).fenced = true)) ∧
     (∃ t, exec (.recoverySpanEnd g) s = .next t ∧ (t.core g).recoveryLeft = 0 ∧ t = { s with cores := t.cores }) ∧
     ((s.core g).recoveryLeft = n + 1 → 1 ≤ n → (∃ u ∈ s.beginTurn.turn, (s.crew u.crew).core = g) →
       (s.beginTurn.core g).recoveryLeft = n ∧
       (n = 1 → (⟨s.cycle + 1, 1024 * 2, .recoverySpanEnd g⟩ : Timed) ∈ s.beginTurn.agenda))) ∧
  (∀ (s : State) (q g a : Nat),
     let paused : Prop := max (s.core g).lastCal (Tab.get 0 (s.core g).calibrated a) + 2 ^ 37 ≤ s.cycle ∧
       (s.core g).seq.any (fun o => o.state = .running) = true
     (∃ t, exec (.patrolScrub q) s = .next t ∧
       ((Config.scrub s.draws).toNat ≤ 2 → t.crews = s.crews ∧ t.hostMem = s.hostMem) ∧
       ((Config.scrub s.draws).toNat = 0 → t = { s with draws := t.draws }) ∧
       ((Config.scrub s.draws).toNat = 1 → t.poison = s.poison ∧ ((s.sett q).corrected = [] → (t.sett q).reportSeq = (s.sett q).reportSeq + 1)) ∧
       ((Config.scrub s.draws).toNat = 2 → (t.sett q).reportSeq = (s.sett q).reportSeq + 1 ∧
         Tab.get false t.poison (hbmAddr q ((Config.scrubAt s.draws).toNat % 2 ^ 37 / 64 * 64) / 64) = true)) ∧
     (s.convertingOn g = false →
       (∃ t, exec (.converterCalibration g a) s = .next t ∧ Tab.get 0 (t.core g).calibrated a = s.cycle ∧
         (t.core g).retired = (s.core g).retired + (if Config.drift s.draws then 1 else 0) ∧ t.crews = s.crews ∧ t.blocks = s.blocks ∧
         (Config.drift s.draws = true → (t.sett (coreSett g)).reportSeq = (s.sett (coreSett g)).reportSeq + 1) ∧
         (Config.drift s.draws = false → t.hbm = s.hbm ∧ t.setts = s.setts)) ∧
       (paused → ∃ t, exec (.calibrationPause g a) s = .next t ∧ Tab.get 0 (t.core g).calibrated a = s.cycle ∧ t.crews = s.crews ∧ t.blocks = s.blocks ∧
         (t.hbm = s.hbm ∧ t.hostMem = s.hostMem) ∧
         ∀ y ∈ s.agenda, (if ((s.core g).seq.filter (fun o => o.state = .running)).any (fun o => opEvent g o.id y.ev)
           then ({ y with due := y.due + 512 } : Timed) else y) ∈ t.agenda)) ∧
     (¬ paused → exec (.calibrationPause g a) s = .next s) ∧
     (s.convertingOn g = true →
       (∃ t, exec (.converterCalibration g a) s = .next t ∧ t = { s with agenda := t.agenda }) ∧
       (paused → ∃ t, exec (.calibrationPause g a) s = .next t ∧ t = { s with agenda := t.agenda })))

/-- ROLLBACK_RESTORE_DONE (R414, R416, R420): a core that has finished restoring goes on, its recovery span begins and lasts until it has
issued in 256 cycles, and the registers and predicates of a crew stand as they stood at the rollback point, where nothing came from outside
since then and none of its requests, copies or timed steps stood at the point; crews of other blocks keep theirs. A full journal (R415):
while the changes of its last 256 cycles fill a core's journal, no issue of the cycle is the core's and no due event that is taken is a
step of its own units. Where the rules leave a point open it follows the model's choice: log 44, 73, 89. -/
def Obligations.Rollback : Prop :=
  (∀ (s : State) (g t0 c0 n : Nat) (x : Snap), (s.core g).restoring = some t0 → t0 ≤ s.cycle →
     Tab.get [] s.journals g = [⟨c0, some x, [], n⟩] → (s.core g).point ≤ c0 → x.reqs = [] → x.copies = [] → x.groups = [] → x.events = [] →
     (x.crews.map Prod.fst).Nodup → (∀ p ∈ x.crews, p.2.egress = []) → (∀ p ∈ s.crews, p.2.egress = []) →
     ∃ t, exec (.rollbackRestoreDone g) s = .next t ∧ (t.core g).restoring = none ∧ (t.core g).recoveryLeft = 257 ∧
       t.hostMem = s.hostMem ∧
       (∀ b y k c, b ∈ s.blocksOn g → x.blocks.find? (fun p => p.1 = b) = some (b, y) → y.readyAt = (s.block b).readyAt → (k, c) ∈ x.crews →
         crewBlock k = b → (t.crew k).regs = c.regs ∧ (t.crew k).preds = c.preds) ∧
       ∀ k, crewBlock k ∉ s.blocksOn g → (t.crew k).regs = (s.crew k).regs ∧ (t.crew k).preds = (s.crew k).preds) ∧
  (∀ (s : State) (g : Nat), s.journalFull g = true →
     (∀ u ∈ s.beginTurn.turn, (s.crew u.crew).core ≠ g) ∧
     ∀ e t, s.dueEvent = some (e, t) → g ∈ s.liveCores → s.needsEntry g e = false)

/-- Plagil links (R377, R378, R421, R450): an intact flit in sequence is taken, an idle one moves no sequence; a damaged one is answered
with a NAK, and the receiver discards what comes out of sequence; a NAK makes the sender replay, the sixteenth in a row retrains; a failed
retraining takes the link down and raises vector 3; a peer that authenticates becomes the link's module and another one leaves it down;
keys step; the host link can go down. SPDM (R449, R450; the codes of the answers and the order of the requests are the model's, log 33):
the requests of a session that come in order are answered and step it, KEY_UPDATE and FINISH give an open session new keys, and a request
out of order is answered with ERROR. Key slots and the outbound filter (R453 to R457): inside the host's session a key goes into its slot
and leaves it, slot 0 is refused with 3, a slot that does not exist with 1, a slot in use in service with 2; a filter entry is written in
its two halves, and a read of it completes once no access that passed the filter is on its way. Flit payloads, crc and the free outcome of
a retrain are the model's too: log 30, 92, 93, 96, 98. -/
def Obligations.LinksAndTrust : Prop :=
  (∀ (s : State) (l n p peer : Nat), l < 18 →
     ((s.link l).st ≠ 0 →
       (n = (s.link l).recvSeq →
         (1 ≤ flitType p → flitType p ≤ 4 →
           ∃ t, exec (.flitReceive l n 1 p) s = .next t ∧ (t.link l).recvSeq = (n + 1) % 4096 ∧ (t.link l).discarding = false) ∧
         (flitType p = 0 → ∃ t, exec (.flitReceive l n 1 p) s = .next t ∧ (t.link l).recvSeq = n ∧ (t.link l).discarding = false ∧
           (t.hbm = s.hbm ∧ t.hostMem = s.hostMem) ∧ t.crews = s.crews)) ∧
       (n ≠ (s.link l).recvSeq → flitType p ≤ 4 → (s.link l).discarding = true → exec (.flitReceive l n 1 p) s = .next s) ∧
       (∃ t, exec (.flitReceive l n 0 p) s = .next t ∧ t.link l = { s.link l with discarding := true } ∧
         t.out = s.out ++ [.nak l (s.link l).recvSeq] ∧ t = { s with links := t.links, out := t.out })) ∧
     ((s.link l).st = 1 → (∀ f ∈ (s.link l).replay, 256 ≤ ((n + 4095) % 4096 + 4096 - f.1) % 4096) →
       ((s.link l).naks < 15 →
         ∃ t, exec (.nakReceive l n) s = .next t ∧ t.link l = { s.link l with naks := (s.link l).naks + 1 } ∧
           t.out = s.out ++ (s.link l).replay.map (fun f => OutMsg.flit l (wholeFlit f.2)) ∧ t = { s with links := t.links, out := t.out }) ∧
       (15 ≤ (s.link l).naks →
         ∃ t ok, exec (.nakReceive l n) s = .next t ∧ (t.link l).st = 2 ∧ (⟨s.cycle + 68000, 1024 * 97, .linkRetrainDone l ok⟩ : Timed) ∈ t.agenda ∧
           t.out = s.out ∧ (t.hbm = s.hbm ∧ t.hostMem = s.hostMem) ∧ t.crews = s.crews)) ∧
     ((s.link l).st = 2 →
       ((s.link l).waiting = [] → ∃ t, exec (.linkRetrainDone l 1) s = .next t ∧ t.link l = { s.link l with st := 1, naks := 0 } ∧
         t.out = s.out ++ (s.link l).replay.map (fun f => OutMsg.flit l (wholeFlit f.2)) ∧ t = { s with links := t.links, out := t.out }) ∧
       ((∀ y ∈ s.reqs, ∀ r, y.2 = some r → ∀ x ∈ r.lanes, s.overLink r l x = false) →
         ∃ t, exec (.linkRetrainDone l 0) s = .next t ∧ (t.link l).st = 0 ∧ (t.link l).replay = [] ∧ (t.link l).waiting = [] ∧
           (∀ q, q < 8 → (t.sett q).raised = (s.sett q).raised ++ [3]) ∧ t.crews = s.crews ∧ (t.hbm = s.hbm ∧ t.hostMem = s.hostMem))) ∧
     ((s.link l).st = 0 →
       (∃ t, exec (.linkBringup l peer 1) s = .next t ∧ t = { s with links := t.links } ∧
         t.link l = { Link.init with st := 1, peer := peer, key := (s.link l).key + 1, latency := (s.link l).latency }) ∧
       ∃ t, exec (.linkBringup l peer 0) s = .next t ∧ (t.link l).st = 0 ∧ t = { s with links := t.links }) ∧
     ((s.link l).st ≠ 0 → ∃ t, exec (.linkKeyUpdate l) s = .next t ∧ t.link l = { s.link l with key := (s.link l).key + 1 } ∧
       t = { s with links := t.links }) ∧
     exec .hostLinkDown s = .next { s with hostUp := false }) ∧
  (∀ (s : State) (n die : Nat),
     let st := (s.session n).st
     let said (t : State) (code v : Nat) : Prop :=
       t.out = s.out ++ [.spdm n code v] ∧ t = { s with sessions := t.sessions, links := t.links, draws := t.draws, out := t.out }
     let error : State := { s with out := s.out ++ [.spdm n 0x7F 4] }
     (∃ t, exec (.getVersion n) s = .next t ∧ (t.session n).st = 1 ∧ said t 4 0x13) ∧
     (st = 1 → ∃ t v, exec (.getCapabilities n) s = .next t ∧ (t.session n).st = 2 ∧ said t 0x61 v) ∧
     (st = 2 → ∃ t v, exec (.negotiateAlgorithms n) s = .next t ∧ (t.session n).st = 3 ∧ said t 0x63 v) ∧
     (3 ≤ st →
       (∃ t v, exec (.getDigests n) s = .next t ∧ t.sessions = s.sessions ∧ said t 1 v) ∧
       (die < 24 → ∃ t, exec (.getCertificate n die) s = .next t ∧ t.sessions = s.sessions ∧ said t 2 (Config.certificate die)) ∧
       (∃ t v, exec (.challenge n) s = .next t ∧ t.sessions = s.sessions ∧ said t 3 v) ∧
       (∃ t v, exec (.getMeasurements n) s = .next t ∧ t.sessions = s.sessions ∧ said t 0x60 v) ∧
       (∃ t v, exec (.keyExchange n) s = .next t ∧ (t.session n).st = 4 ∧ said t 0x64 v)) ∧
     (st = 4 → ∃ t, exec (.finish n) s = .next t ∧ (t.session n).st = 5 ∧ said t 0x65 0) ∧
     (st = 5 → (∃ t, exec (.keyUpdate n) s = .next t ∧ (t.session n).st = 5 ∧ said t 0x69 0) ∧
       (∃ t, exec (.endSession n) s = .next t ∧ t.session n = { st := 3 } ∧ said t 0x6C 0)) ∧
     (st ≠ 1 → exec (.getCapabilities n) s = .next error) ∧
     (st ≠ 2 → exec (.negotiateAlgorithms n) s = .next error) ∧
     (st < 3 → ∀ e ∈ [Instr.getDigests n, .getCertificate n die, .challenge n, .getMeasurements n, .keyExchange n], exec e s = .next error) ∧
     (st ≠ 4 → exec (.finish n) s = .next error) ∧
     (st ≠ 5 → exec (.keyUpdate n) s = .next error ∧ exec (.endSession n) s = .next error)) ∧
  (∀ (s : State) (q n key base limit : Nat),
     ((s.session 0).st = 5 →
       (q < 8 → 1 ≤ n → n < 64 →
         ((s.keyOf q n).isSome = false ∨ (s.sett q).span ≠ .service →
           ∃ t, exec (.keyLoad q n key) s = .next t ∧ t.keyOf q n = some (key % 2 ^ 512) ∧ t.out = s.out ++ [.spdm 0 0x7E 0] ∧
             (∀ j, j ≠ n → t.keyOf q j = s.keyOf q j) ∧ (t.hbm = s.hbm ∧ t.hostMem = s.hostMem)) ∧
         ((s.keyOf q n).isSome = true → (s.sett q).span = .service →
           exec (.keyLoad q n key) s = .next { s with out := s.out ++ [.spdm 0 0x7E 2] }) ∧
         (∃ t, exec (.keyClear q n) s = .next t ∧ t.keyOf q n = none ∧ t.out = s.out ++ [.spdm 0 0x7E 0] ∧
           (∀ j, j ≠ n → t.keyOf q j = s.keyOf q j) ∧ (t.hbm = s.hbm ∧ t.hostMem = s.hostMem))) ∧
       (q < 8 → exec (.keyLoad q 0 key) s = .next { s with out := s.out ++ [.spdm 0 0x7E 3] } ∧
         exec (.keyClear q 0) s = .next { s with out := s.out ++ [.spdm 0 0x7E 3] }) ∧
       (64 ≤ n → exec (.keyLoad q n key) s = .next { s with out := s.out ++ [.spdm 0 0x7E 1] } ∧
         exec (.keyClear q n) s = .next { s with out := s.out ++ [.spdm 0 0x7E 1] })) ∧
     ((s.session 0).st ≠ 5 → ∀ e ∈ [Instr.keyLoad q n key, .keyClear q n], exec e s = .next { s with out := s.out ++ [.spdm 0 0x7F 4] }) ∧
     (q < 8 → n < 16 →
       ∃ t, exec (.filterEntryWrite q n base limit) s = .next t ∧ t = { s with setts := t.setts } ∧
         Tab.get Filter.init (t.sett q).filter n =
           { base := bits base 63 25, limit := bits limit 50 12, w := base.testBit 2, r := base.testBit 1, en := base.testBit 0 } ∧
         ∀ j, j ≠ n → Tab.get Filter.init (t.sett q).filter j = Tab.get Filter.init (s.sett q).filter j) ∧
     (∀ j, j < 4 → n < 16 →
       (s.outward q = false →
         exec (.dvsecRead q (0x800 + 16 * n + 4 * j)) s = .next { s with out := s.out ++
           [.cxl q 9 (0x800 + 16 * n + 4 * j) ((Tab.get Filter.init (s.sett q).filter n).word / 2 ^ (32 * j) % 2 ^ 32)] }) ∧
       (s.outward q = true → ∃ t, exec (.dvsecRead q (0x800 + 16 * n + 4 * j)) s = .next t ∧ t = { s with agenda := t.agenda } ∧
         (⟨s.cycle + 1, 1024 * 97, .dvsecRead q (0x800 + 16 * n + 4 * j)⟩ : Timed) ∈ t.agenda)))

/-- Start-up and the loss of power (R13, R452, R458, R459): after either every sett is in its start-up span, in maintenance mode, with
nothing launched and key slot 0 alone filled; a sett's reset takes its crews, its blocks and its tables and leaves HBM where no write
awaited acknowledgements at its homes; a trip or an undervoltage loses what the module held, not what the host holds, and latches; a rail
over its limit and its recovery change nothing but the clock. The quiesce and the images (R434, R435, R438, R443, R445): HIBERNATE is
accepted in service, and in suspension for another image; each step of the quiesce ends where the rule says and begins the next; the cut
clears the release tags; the image stands in the extents, every sett is suspended and the command ends with the image's length, or with
status 4 where the extents are too short; WAKE is refused in service, loads an image that passes the checks and refuses any other. Where
the rules leave a point open it follows the model's choice: log 2, 91, 94, 95, 97, 116, 117. -/
def Obligations.SpansAndImages : Prop :=
  (∀ (s : State) (q die rail : Nat),
     (∃ t, exec .powerOn s = .next t ∧ t.crews = [] ∧ t.blocks = [] ∧ t.reqs = [] ∧ t.hbm = [] ∧ t.hostMem = s.hostMem ∧ t.hostUp = true ∧
       t.power.on = true ∧ t.power.tripped = false ∧ t.power.locked = false ∧
       t.cxlCache = Config.cacheEnabled s.draws ∧ t.atomicOps = Config.atomicEnabled s.draws ∧
       ∀ p, p < 8 → (t.sett p).span = .startUp ∧ (t.sett p).launches = [] ∧ (∃ k, (t.sett p).keys = [(0, some k)]) ∧
         (t.sett p).maintenance = true ∧
         t.time p = 0 ∧ (⟨s.cycle + fabric 4096, 1024 * 79, .dependencePoll p⟩ : Timed) ∈ t.agenda) ∧
     (q < 8 →
       ∃ t, exec (.settReset q) s = .next t ∧ (t.sett q).span = .startUp ∧ (t.sett q).launches = [] ∧ (t.sett q).records = [] ∧
         (t.sett q).setbase = [] ∧ (∃ k, (t.sett q).keys = [(0, some k)]) ∧ (∀ k, crewSett k = q → t.crew k = Crew.init) ∧
         (∀ b, blockSett b = q → t.block b = Block.init) ∧ t.hostMem = s.hostMem ∧ ((s.sett q).collectors = [] → t.hbm = s.hbm)) ∧
     (∃ t, exec .thermalTrip s = .next t ∧ t.power.tripped = true ∧ t.power.on = false ∧ t.hostUp = false ∧ t.crews = [] ∧ t.hbm = [] ∧
       t.hostMem = s.hostMem) ∧
     (∃ t, exec .supplyUndervoltage s = .next t ∧ t.power.locked = true ∧ t.power.on = false ∧ t.hostUp = false ∧ t.crews = [] ∧ t.hbm = [] ∧
       t.hostMem = s.hostMem) ∧
     (∃ t, exec (.railOvercurrent die rail) s = .next t ∧ 4 * die + rail ∈ t.power.halved ∧ t = { s with power := t.power }) ∧
     (∃ t, exec (.clockRecover die rail) s = .next t ∧ 4 * die + rail ∉ t.power.halved ∧ t = { s with power := t.power })) ∧
  (∀ (s : State),
     ((s.sett 0).cmdBusy = true → s.commandBar 0 = none → s.hib.step = 0 →
       let a := comArg0 (s.command 0)
       let v := comArg1 (s.command 0)
       a % 16 = 0 → extentsOk (s.extents a) = true →
       (v = 0 → (s.sett 0).span = .startUp → ∃ t, exec (.hibernate 0) s = .next t ∧ Answered 0 3 0 s t) ∧
       (v = 0 → (s.sett 0).span = .service →
         ∃ t, exec (.hibernate 0) s = .next t ∧ t.hib = { step := 1, accepted := s.cycle, extents := a } ∧
           (⟨s.cycle + 1, 1024 * 89, .quiescePreemptDone⟩ : Timed) ∈ t.agenda ∧
           (⟨s.cycle + 2 ^ 24, 1024 * 89, .quiesceCollectiveTimeout⟩ : Timed) ∈ t.agenda ∧
           (t.hbm = s.hbm ∧ t.hostMem = s.hostMem) ∧ t.crews = s.crews) ∧
       (v = 0 → (s.sett 0).span = .suspension →
         ∃ t, exec (.hibernate 0) s = .next t ∧ t = { s with hib := { s.hib with step := 6, extents := a }, agenda := t.agenda } ∧
           (⟨s.cycle + 1, 1024 * 89, .hibernateImageDone⟩ : Timed) ∈ t.agenda) ∧
       (v % 8 = 0 → (s.sett 0).span = .service → ∃ t, exec (.wake 0) s = .next t ∧ Answered 0 3 0 s t ∧ t.hbm = s.hbm) ∧
       (v % 8 = 0 → (s.sett 0).span ≠ .service →
         let m := readExtents s.hostMem 0 (s.extents a)
         let secs := (List.range 33).map (sectionAt m)
         (s.imageOk m secs (s.hostRead v 57) = false → ∃ t, exec (.wake 0) s = .next t ∧ Answered 0 4 0 s t ∧ t.hbm = s.hbm) ∧
         (s.imageOk m secs (s.hostRead v 57) = true → ∃ t, exec (.wake 0) s = .next t ∧ Answered 0 0 0 s t ∧
           (∀ q, q < 8 → (t.sett q).span = .service) ∧
           t.hbm = (List.range 8).flatMap (fun q =>
             (unpackHbm (findSection secs 4 q) (findSection secs 5 q)).map (fun b => (hbmAddr q b.1, b.2)))))) ∧
     (s.hib.step = 1 → s.anyPlaced = false →
       ∃ t, exec .quiescePreemptDone s = .next t ∧ t = { s with hib := { s.hib with step := 2 }, agenda := t.agenda } ∧
         (⟨s.cycle + 1, 1024 * 89, .quiesceOutwardDone⟩ : Timed) ∈ t.agenda) ∧
     (1 ≤ s.hib.step → s.hib.step ≤ 2 → s.hib.accepted + 2 ^ 24 ≤ s.cycle →
       ∃ t, exec .quiesceCollectiveTimeout s = .next t ∧ t.hib = s.hib ∧
         ∀ q g a, q < 8 → (s.sett q).running = [(g, a)] → (s.group q g).attempt = a → a < 65536 → (t.group q g).attempt = (a + 1) % 65536) ∧
     (s.hib.step = 2 → (∀ y ∈ s.setts, y.2.running = []) →
       ∃ t, exec .quiesceOutwardDone s = .next t ∧ t.hib = { s.hib with step := 3 } ∧
         (⟨s.cycle + 1, 1024 * 89, .quiesceOutwardDone⟩ : Timed) ∈ t.agenda ∧ (t.hbm = s.hbm ∧ t.hostMem = s.hostMem)) ∧
     (s.hib.step = 3 → s.outwardDone = true →
       ∃ t, exec .quiesceOutwardDone s = .next t ∧ t.hib = { s.hib with step := 4 } ∧ t.portLines = [] ∧
         (⟨s.cycle + 64, 1024 * 89, .quiesceRecallDone⟩ : Timed) ∈ t.agenda) ∧
     (s.hib.step = 4 → (∀ y ∈ s.setts, y.2.dir = [] ∧ y.2.victims = [] ∧ y.2.collectors = []) →
       (∀ y ∈ s.cores, y.2.l1 = [] ∧ y.2.sectors = []) →
       ∃ t, exec .quiesceRecallDone s = .next t ∧ t = { s with hib := { s.hib with step := 5 }, agenda := t.agenda } ∧
         (⟨s.cycle + 1, 1024 * 89, .quiesceFreeze⟩ : Timed) ∈ t.agenda) ∧
     (s.hib.step = 5 →
       ∃ t, exec .quiesceFreeze s = .next t ∧ t.hib = { s.hib with step := 6, cut := s.cycle } ∧ (∀ q, (t.sett q).tags = []) ∧
         (⟨s.cycle + 1, 1024 * 89, .hibernateImageDone⟩ : Timed) ∈ t.agenda ∧ (t.hbm = s.hbm ∧ t.hostMem = s.hostMem)) ∧
     (s.hib.step = 6 →
       let u : State := { s with draws := s.draws + 1 }
       let l := s.extents s.hib.extents
       let size := (u.image s.draws).2
       ∃ t, exec .hibernateImageDone s = .next t ∧ t.hib.step = 0 ∧ (∀ q, q < 8 → (t.sett q).span = .suspension) ∧ t.hbm = s.hbm ∧
         (size ≤ extentsLength l →
           Answered 0 0 size { s with hostMem := writeExtents (u.image s.draws).1 size s.hostMem 0 l } t) ∧
         (extentsLength l < size → Answered 0 4 size s t)))
end

