-- ==== Sys2Proof/Laws/Tab.lean ====
section
/-! SUPPORT. The laws of sparse tables: reading after writing, and the canonical form that every write keeps. -/

namespace Sys2Proof.Machine

variable {β : Type}

theorem Tab.get_ins (d v : β) (t : Tab β) (i j : Nat) : Tab.get d (Tab.ins i v t) j = if j = i then v else Tab.get d t j := by
  induction t with
  | nil => simp [Tab.ins, Tab.get]
  | cons p t ih =>
    obtain ⟨k, w⟩ := p
    simp only [Tab.ins]
    split
    · simp [Tab.get]
    · split
      · subst_vars; simp [Tab.get]; split <;> simp_all
      · simp only [Tab.get, ih]; grind

theorem Tab.get_filter_ne (d : β) (t : Tab β) (i j : Nat) :
    Tab.get d (t.filter (fun p => p.1 != i)) j = if j = i then d else Tab.get d t j := by
  induction t with
  | nil => simp [Tab.get]
  | cons p t ih => obtain ⟨k, w⟩ := p; simp only [List.filter]; grind [Tab.get]

/-- Reading after writing, in any table. -/
theorem Tab.get_set [DecidableEq β] (d : β) (t : Tab β) (i : Nat) (v : β) (j : Nat) :
    Tab.get d (Tab.set d t i v) j = if j = i then v else Tab.get d t j := by
  unfold Tab.set
  split
  · subst_vars; exact Tab.get_filter_ne _ _ _ _
  · exact Tab.get_ins d v t i j

@[simp] theorem Tab.get_set_same [DecidableEq β] (d : β) (t : Tab β) (i : Nat) (v : β) : Tab.get d (Tab.set d t i v) i = v := by
  simp [Tab.get_set]

theorem Tab.get_set_ne [DecidableEq β] (d : β) (t : Tab β) {i j : Nat} (v : β) (h : j ≠ i) :
    Tab.get d (Tab.set d t i v) j = Tab.get d t j := by simp [Tab.get_set, h]

@[simp] theorem Tab.get_nil (d : β) (i : Nat) : Tab.get d ([] : Tab β) i = d := rfl

/-! ## The canonical form -/

theorem Tab.wfFrom_le [DecidableEq β] {d : β} {a b : Nat} {t : Tab β} (h : a ≤ b) (ht : Tab.wfFrom d b t = true) :
    Tab.wfFrom d a t = true := by
  cases t with
  | nil => rfl
  | cons p t => obtain ⟨k, v⟩ := p; simp only [Tab.wfFrom, Bool.and_eq_true, decide_eq_true_eq] at ht ⊢; exact ⟨⟨by omega, ht.1.2⟩, ht.2⟩

theorem Tab.wfFrom_ins [DecidableEq β] {d v : β} (hv : v ≠ d) {t : Tab β} {a i : Nat} (hi : a ≤ i) (h : Tab.wfFrom d a t = true) :
    Tab.wfFrom d a (Tab.ins i v t) = true := by
  induction t generalizing a with
  | nil => simp [Tab.ins, Tab.wfFrom, hv, hi]
  | cons p t ih =>
    obtain ⟨k, w⟩ := p
    simp only [Tab.wfFrom, Bool.and_eq_true, decide_eq_true_eq] at h
    simp only [Tab.ins]
    split
    · simp only [Tab.wfFrom, Bool.and_eq_true, decide_eq_true_eq]; exact ⟨⟨hi, hv⟩, ⟨by omega, h.1.2⟩, h.2⟩
    · split
      · subst_vars; simp only [Tab.wfFrom, Bool.and_eq_true, decide_eq_true_eq]; exact ⟨⟨hi, hv⟩, h.2⟩
      · simp only [Tab.wfFrom, Bool.and_eq_true, decide_eq_true_eq]; exact ⟨⟨h.1.1, h.1.2⟩, ih (by omega) h.2⟩

theorem Tab.wfFrom_filter [DecidableEq β] {d : β} {t : Tab β} {a : Nat} (f : Nat × β → Bool) (h : Tab.wfFrom d a t = true) :
    Tab.wfFrom d a (t.filter f) = true := by
  induction t generalizing a with
  | nil => rfl
  | cons p t ih =>
    obtain ⟨k, w⟩ := p
    simp only [Tab.wfFrom, Bool.and_eq_true, decide_eq_true_eq] at h
    simp only [List.filter]
    split
    · simp only [Tab.wfFrom, Bool.and_eq_true, decide_eq_true_eq]; exact ⟨h.1, ih h.2⟩
    · exact Tab.wfFrom_le (by omega) (ih h.2)

/-- A table keeps its canonical form under a filter. -/
theorem Tab.wf_filter [DecidableEq β] {d : β} {t : Tab β} (f : Nat × β → Bool) (h : Tab.wf d t = true) :
    Tab.wf d (t.filter f) = true := Tab.wfFrom_filter f h

/-- Every write keeps the canonical form. -/
theorem Tab.wf_set [DecidableEq β] {d : β} {t : Tab β} {i : Nat} {v : β} (h : Tab.wf d t = true) : Tab.wf d (Tab.set d t i v) = true := by
  unfold Tab.set
  split
  · exact Tab.wf_filter _ h
  · exact Tab.wfFrom_ins ‹_› (Nat.zero_le _) h

@[simp] theorem Tab.wf_nil [DecidableEq β] (d : β) : Tab.wf d ([] : Tab β) = true := rfl

end Sys2Proof.Machine
end

