-- ==== Sys2Proof/Laws/State.lean ====
section
/-! SUPPORT. What each update of the state leaves alone, one lemma for each field, and what the record it writes reads as. -/

namespace Sys2Proof.Machine

@[simp] theorem State.setCrew_cycle (s : State) (k : Nat) (c : Crew) : (s.setCrew k c).cycle = s.cycle := rfl
@[simp] theorem State.setCrew_turn (s : State) (k : Nat) (c : Crew) : (s.setCrew k c).turn = s.turn := rfl
@[simp] theorem State.setCrew_cur (s : State) (k : Nat) (c : Crew) : (s.setCrew k c).cur = s.cur := rfl
@[simp] theorem State.setCrew_planned (s : State) (k : Nat) (c : Crew) : (s.setCrew k c).planned = s.planned := rfl
@[simp] theorem State.setCrew_agenda (s : State) (k : Nat) (c : Crew) : (s.setCrew k c).agenda = s.agenda := rfl
@[simp] theorem State.setCrew_draws (s : State) (k : Nat) (c : Crew) : (s.setCrew k c).draws = s.draws := rfl
@[simp] theorem State.setCrew_blocks (s : State) (k : Nat) (c : Crew) : (s.setCrew k c).blocks = s.blocks := rfl
@[simp] theorem State.setCrew_cores (s : State) (k : Nat) (c : Crew) : (s.setCrew k c).cores = s.cores := rfl
@[simp] theorem State.setCrew_setts (s : State) (k : Nat) (c : Crew) : (s.setCrew k c).setts = s.setts := rfl
@[simp] theorem State.setCrew_hbm (s : State) (k : Nat) (c : Crew) : (s.setCrew k c).hbm = s.hbm := rfl
@[simp] theorem State.setCrew_hostMem (s : State) (k : Nat) (c : Crew) : (s.setCrew k c).hostMem = s.hostMem := rfl
@[simp] theorem State.setCrew_sealed (s : State) (k : Nat) (c : Crew) : (s.setCrew k c).sealed = s.sealed := rfl
@[simp] theorem State.setCrew_codeOld (s : State) (k : Nat) (c : Crew) : (s.setCrew k c).codeOld = s.codeOld := rfl
@[simp] theorem State.setCrew_poison (s : State) (k : Nat) (c : Crew) : (s.setCrew k c).poison = s.poison := rfl
@[simp] theorem State.setCrew_reqs (s : State) (k : Nat) (c : Crew) : (s.setCrew k c).reqs = s.reqs := rfl
@[simp] theorem State.setCrew_copies (s : State) (k : Nat) (c : Crew) : (s.setCrew k c).copies = s.copies := rfl
@[simp] theorem State.setCrew_groups (s : State) (k : Nat) (c : Crew) : (s.setCrew k c).groups = s.groups := rfl
@[simp] theorem State.setCrew_walks (s : State) (k : Nat) (c : Crew) : (s.setCrew k c).walks = s.walks := rfl
@[simp] theorem State.setCrew_invs (s : State) (k : Nat) (c : Crew) : (s.setCrew k c).invs = s.invs := rfl
@[simp] theorem State.setCrew_journals (s : State) (k : Nat) (c : Crew) : (s.setCrew k c).journals = s.journals := rfl
@[simp] theorem State.setCrew_nextId (s : State) (k : Nat) (c : Crew) : (s.setCrew k c).nextId = s.nextId := rfl
@[simp] theorem State.setCrew_links (s : State) (k : Nat) (c : Crew) : (s.setCrew k c).links = s.links := rfl
@[simp] theorem State.setCrew_sessions (s : State) (k : Nat) (c : Crew) : (s.setCrew k c).sessions = s.sessions := rfl
@[simp] theorem State.setCrew_hostUp (s : State) (k : Nat) (c : Crew) : (s.setCrew k c).hostUp = s.hostUp := rfl
@[simp] theorem State.setCrew_cxlCache (s : State) (k : Nat) (c : Crew) : (s.setCrew k c).cxlCache = s.cxlCache := rfl
@[simp] theorem State.setCrew_atomicOps (s : State) (k : Nat) (c : Crew) : (s.setCrew k c).atomicOps = s.atomicOps := rfl
@[simp] theorem State.setCrew_portLines (s : State) (k : Nat) (c : Crew) : (s.setCrew k c).portLines = s.portLines := rfl
@[simp] theorem State.setCrew_mapgen (s : State) (k : Nat) (c : Crew) : (s.setCrew k c).mapgen = s.mapgen := rfl
@[simp] theorem State.setCrew_clusterMap (s : State) (k : Nat) (c : Crew) : (s.setCrew k c).clusterMap = s.clusterMap := rfl
@[simp] theorem State.setCrew_hib (s : State) (k : Nat) (c : Crew) : (s.setCrew k c).hib = s.hib := rfl
@[simp] theorem State.setCrew_power (s : State) (k : Nat) (c : Crew) : (s.setCrew k c).power = s.power := rfl
@[simp] theorem State.setCrew_imageTails (s : State) (k : Nat) (c : Crew) : (s.setCrew k c).imageTails = s.imageTails := rfl
@[simp] theorem State.setCrew_imageWaits (s : State) (k : Nat) (c : Crew) : (s.setCrew k c).imageWaits = s.imageWaits := rfl
@[simp] theorem State.setCrew_measurements (s : State) (k : Nat) (c : Crew) : (s.setCrew k c).measurements = s.measurements := rfl
@[simp] theorem State.setCrew_out (s : State) (k : Nat) (c : Crew) : (s.setCrew k c).out = s.out := rfl

@[simp] theorem State.setBlock_cycle (s : State) (k : Nat) (c : Block) : (s.setBlock k c).cycle = s.cycle := rfl
@[simp] theorem State.setBlock_turn (s : State) (k : Nat) (c : Block) : (s.setBlock k c).turn = s.turn := rfl
@[simp] theorem State.setBlock_cur (s : State) (k : Nat) (c : Block) : (s.setBlock k c).cur = s.cur := rfl
@[simp] theorem State.setBlock_planned (s : State) (k : Nat) (c : Block) : (s.setBlock k c).planned = s.planned := rfl
@[simp] theorem State.setBlock_agenda (s : State) (k : Nat) (c : Block) : (s.setBlock k c).agenda = s.agenda := rfl
@[simp] theorem State.setBlock_draws (s : State) (k : Nat) (c : Block) : (s.setBlock k c).draws = s.draws := rfl
@[simp] theorem State.setBlock_crews (s : State) (k : Nat) (c : Block) : (s.setBlock k c).crews = s.crews := rfl
@[simp] theorem State.setBlock_cores (s : State) (k : Nat) (c : Block) : (s.setBlock k c).cores = s.cores := rfl
@[simp] theorem State.setBlock_setts (s : State) (k : Nat) (c : Block) : (s.setBlock k c).setts = s.setts := rfl
@[simp] theorem State.setBlock_hbm (s : State) (k : Nat) (c : Block) : (s.setBlock k c).hbm = s.hbm := rfl
@[simp] theorem State.setBlock_hostMem (s : State) (k : Nat) (c : Block) : (s.setBlock k c).hostMem = s.hostMem := rfl
@[simp] theorem State.setBlock_sealed (s : State) (k : Nat) (c : Block) : (s.setBlock k c).sealed = s.sealed := rfl
@[simp] theorem State.setBlock_codeOld (s : State) (k : Nat) (c : Block) : (s.setBlock k c).codeOld = s.codeOld := rfl
@[simp] theorem State.setBlock_poison (s : State) (k : Nat) (c : Block) : (s.setBlock k c).poison = s.poison := rfl
@[simp] theorem State.setBlock_reqs (s : State) (k : Nat) (c : Block) : (s.setBlock k c).reqs = s.reqs := rfl
@[simp] theorem State.setBlock_copies (s : State) (k : Nat) (c : Block) : (s.setBlock k c).copies = s.copies := rfl
@[simp] theorem State.setBlock_groups (s : State) (k : Nat) (c : Block) : (s.setBlock k c).groups = s.groups := rfl
@[simp] theorem State.setBlock_walks (s : State) (k : Nat) (c : Block) : (s.setBlock k c).walks = s.walks := rfl
@[simp] theorem State.setBlock_invs (s : State) (k : Nat) (c : Block) : (s.setBlock k c).invs = s.invs := rfl
@[simp] theorem State.setBlock_journals (s : State) (k : Nat) (c : Block) : (s.setBlock k c).journals = s.journals := rfl
@[simp] theorem State.setBlock_nextId (s : State) (k : Nat) (c : Block) : (s.setBlock k c).nextId = s.nextId := rfl
@[simp] theorem State.setBlock_links (s : State) (k : Nat) (c : Block) : (s.setBlock k c).links = s.links := rfl
@[simp] theorem State.setBlock_sessions (s : State) (k : Nat) (c : Block) : (s.setBlock k c).sessions = s.sessions := rfl
@[simp] theorem State.setBlock_hostUp (s : State) (k : Nat) (c : Block) : (s.setBlock k c).hostUp = s.hostUp := rfl
@[simp] theorem State.setBlock_cxlCache (s : State) (k : Nat) (c : Block) : (s.setBlock k c).cxlCache = s.cxlCache := rfl
@[simp] theorem State.setBlock_atomicOps (s : State) (k : Nat) (c : Block) : (s.setBlock k c).atomicOps = s.atomicOps := rfl
@[simp] theorem State.setBlock_portLines (s : State) (k : Nat) (c : Block) : (s.setBlock k c).portLines = s.portLines := rfl
@[simp] theorem State.setBlock_mapgen (s : State) (k : Nat) (c : Block) : (s.setBlock k c).mapgen = s.mapgen := rfl
@[simp] theorem State.setBlock_clusterMap (s : State) (k : Nat) (c : Block) : (s.setBlock k c).clusterMap = s.clusterMap := rfl
@[simp] theorem State.setBlock_hib (s : State) (k : Nat) (c : Block) : (s.setBlock k c).hib = s.hib := rfl
@[simp] theorem State.setBlock_power (s : State) (k : Nat) (c : Block) : (s.setBlock k c).power = s.power := rfl
@[simp] theorem State.setBlock_imageTails (s : State) (k : Nat) (c : Block) : (s.setBlock k c).imageTails = s.imageTails := rfl
@[simp] theorem State.setBlock_imageWaits (s : State) (k : Nat) (c : Block) : (s.setBlock k c).imageWaits = s.imageWaits := rfl
@[simp] theorem State.setBlock_measurements (s : State) (k : Nat) (c : Block) : (s.setBlock k c).measurements = s.measurements := rfl
@[simp] theorem State.setBlock_out (s : State) (k : Nat) (c : Block) : (s.setBlock k c).out = s.out := rfl

@[simp] theorem State.setCore_cycle (s : State) (k : Nat) (c : Core) : (s.setCore k c).cycle = s.cycle := rfl
@[simp] theorem State.setCore_turn (s : State) (k : Nat) (c : Core) : (s.setCore k c).turn = s.turn := rfl
@[simp] theorem State.setCore_cur (s : State) (k : Nat) (c : Core) : (s.setCore k c).cur = s.cur := rfl
@[simp] theorem State.setCore_planned (s : State) (k : Nat) (c : Core) : (s.setCore k c).planned = s.planned := rfl
@[simp] theorem State.setCore_agenda (s : State) (k : Nat) (c : Core) : (s.setCore k c).agenda = s.agenda := rfl
@[simp] theorem State.setCore_draws (s : State) (k : Nat) (c : Core) : (s.setCore k c).draws = s.draws := rfl
@[simp] theorem State.setCore_crews (s : State) (k : Nat) (c : Core) : (s.setCore k c).crews = s.crews := rfl
@[simp] theorem State.setCore_blocks (s : State) (k : Nat) (c : Core) : (s.setCore k c).blocks = s.blocks := rfl
@[simp] theorem State.setCore_setts (s : State) (k : Nat) (c : Core) : (s.setCore k c).setts = s.setts := rfl
@[simp] theorem State.setCore_hbm (s : State) (k : Nat) (c : Core) : (s.setCore k c).hbm = s.hbm := rfl
@[simp] theorem State.setCore_hostMem (s : State) (k : Nat) (c : Core) : (s.setCore k c).hostMem = s.hostMem := rfl
@[simp] theorem State.setCore_sealed (s : State) (k : Nat) (c : Core) : (s.setCore k c).sealed = s.sealed := rfl
@[simp] theorem State.setCore_codeOld (s : State) (k : Nat) (c : Core) : (s.setCore k c).codeOld = s.codeOld := rfl
@[simp] theorem State.setCore_poison (s : State) (k : Nat) (c : Core) : (s.setCore k c).poison = s.poison := rfl
@[simp] theorem State.setCore_reqs (s : State) (k : Nat) (c : Core) : (s.setCore k c).reqs = s.reqs := rfl
@[simp] theorem State.setCore_copies (s : State) (k : Nat) (c : Core) : (s.setCore k c).copies = s.copies := rfl
@[simp] theorem State.setCore_groups (s : State) (k : Nat) (c : Core) : (s.setCore k c).groups = s.groups := rfl
@[simp] theorem State.setCore_walks (s : State) (k : Nat) (c : Core) : (s.setCore k c).walks = s.walks := rfl
@[simp] theorem State.setCore_invs (s : State) (k : Nat) (c : Core) : (s.setCore k c).invs = s.invs := rfl
@[simp] theorem State.setCore_journals (s : State) (k : Nat) (c : Core) : (s.setCore k c).journals = s.journals := rfl
@[simp] theorem State.setCore_nextId (s : State) (k : Nat) (c : Core) : (s.setCore k c).nextId = s.nextId := rfl
@[simp] theorem State.setCore_links (s : State) (k : Nat) (c : Core) : (s.setCore k c).links = s.links := rfl
@[simp] theorem State.setCore_sessions (s : State) (k : Nat) (c : Core) : (s.setCore k c).sessions = s.sessions := rfl
@[simp] theorem State.setCore_hostUp (s : State) (k : Nat) (c : Core) : (s.setCore k c).hostUp = s.hostUp := rfl
@[simp] theorem State.setCore_cxlCache (s : State) (k : Nat) (c : Core) : (s.setCore k c).cxlCache = s.cxlCache := rfl
@[simp] theorem State.setCore_atomicOps (s : State) (k : Nat) (c : Core) : (s.setCore k c).atomicOps = s.atomicOps := rfl
@[simp] theorem State.setCore_portLines (s : State) (k : Nat) (c : Core) : (s.setCore k c).portLines = s.portLines := rfl
@[simp] theorem State.setCore_mapgen (s : State) (k : Nat) (c : Core) : (s.setCore k c).mapgen = s.mapgen := rfl
@[simp] theorem State.setCore_clusterMap (s : State) (k : Nat) (c : Core) : (s.setCore k c).clusterMap = s.clusterMap := rfl
@[simp] theorem State.setCore_hib (s : State) (k : Nat) (c : Core) : (s.setCore k c).hib = s.hib := rfl
@[simp] theorem State.setCore_power (s : State) (k : Nat) (c : Core) : (s.setCore k c).power = s.power := rfl
@[simp] theorem State.setCore_imageTails (s : State) (k : Nat) (c : Core) : (s.setCore k c).imageTails = s.imageTails := rfl
@[simp] theorem State.setCore_imageWaits (s : State) (k : Nat) (c : Core) : (s.setCore k c).imageWaits = s.imageWaits := rfl
@[simp] theorem State.setCore_measurements (s : State) (k : Nat) (c : Core) : (s.setCore k c).measurements = s.measurements := rfl
@[simp] theorem State.setCore_out (s : State) (k : Nat) (c : Core) : (s.setCore k c).out = s.out := rfl

@[simp] theorem State.setSett_cycle (s : State) (k : Nat) (c : Sett) : (s.setSett k c).cycle = s.cycle := rfl
@[simp] theorem State.setSett_turn (s : State) (k : Nat) (c : Sett) : (s.setSett k c).turn = s.turn := rfl
@[simp] theorem State.setSett_cur (s : State) (k : Nat) (c : Sett) : (s.setSett k c).cur = s.cur := rfl
@[simp] theorem State.setSett_planned (s : State) (k : Nat) (c : Sett) : (s.setSett k c).planned = s.planned := rfl
@[simp] theorem State.setSett_agenda (s : State) (k : Nat) (c : Sett) : (s.setSett k c).agenda = s.agenda := rfl
@[simp] theorem State.setSett_draws (s : State) (k : Nat) (c : Sett) : (s.setSett k c).draws = s.draws := rfl
@[simp] theorem State.setSett_crews (s : State) (k : Nat) (c : Sett) : (s.setSett k c).crews = s.crews := rfl
@[simp] theorem State.setSett_blocks (s : State) (k : Nat) (c : Sett) : (s.setSett k c).blocks = s.blocks := rfl
@[simp] theorem State.setSett_cores (s : State) (k : Nat) (c : Sett) : (s.setSett k c).cores = s.cores := rfl
@[simp] theorem State.setSett_hbm (s : State) (k : Nat) (c : Sett) : (s.setSett k c).hbm = s.hbm := rfl
@[simp] theorem State.setSett_hostMem (s : State) (k : Nat) (c : Sett) : (s.setSett k c).hostMem = s.hostMem := rfl
@[simp] theorem State.setSett_sealed (s : State) (k : Nat) (c : Sett) : (s.setSett k c).sealed = s.sealed := rfl
@[simp] theorem State.setSett_codeOld (s : State) (k : Nat) (c : Sett) : (s.setSett k c).codeOld = s.codeOld := rfl
@[simp] theorem State.setSett_poison (s : State) (k : Nat) (c : Sett) : (s.setSett k c).poison = s.poison := rfl
@[simp] theorem State.setSett_reqs (s : State) (k : Nat) (c : Sett) : (s.setSett k c).reqs = s.reqs := rfl
@[simp] theorem State.setSett_copies (s : State) (k : Nat) (c : Sett) : (s.setSett k c).copies = s.copies := rfl
@[simp] theorem State.setSett_groups (s : State) (k : Nat) (c : Sett) : (s.setSett k c).groups = s.groups := rfl
@[simp] theorem State.setSett_walks (s : State) (k : Nat) (c : Sett) : (s.setSett k c).walks = s.walks := rfl
@[simp] theorem State.setSett_invs (s : State) (k : Nat) (c : Sett) : (s.setSett k c).invs = s.invs := rfl
@[simp] theorem State.setSett_journals (s : State) (k : Nat) (c : Sett) : (s.setSett k c).journals = s.journals := rfl
@[simp] theorem State.setSett_nextId (s : State) (k : Nat) (c : Sett) : (s.setSett k c).nextId = s.nextId := rfl
@[simp] theorem State.setSett_links (s : State) (k : Nat) (c : Sett) : (s.setSett k c).links = s.links := rfl
@[simp] theorem State.setSett_sessions (s : State) (k : Nat) (c : Sett) : (s.setSett k c).sessions = s.sessions := rfl
@[simp] theorem State.setSett_hostUp (s : State) (k : Nat) (c : Sett) : (s.setSett k c).hostUp = s.hostUp := rfl
@[simp] theorem State.setSett_cxlCache (s : State) (k : Nat) (c : Sett) : (s.setSett k c).cxlCache = s.cxlCache := rfl
@[simp] theorem State.setSett_atomicOps (s : State) (k : Nat) (c : Sett) : (s.setSett k c).atomicOps = s.atomicOps := rfl
@[simp] theorem State.setSett_portLines (s : State) (k : Nat) (c : Sett) : (s.setSett k c).portLines = s.portLines := rfl
@[simp] theorem State.setSett_mapgen (s : State) (k : Nat) (c : Sett) : (s.setSett k c).mapgen = s.mapgen := rfl
@[simp] theorem State.setSett_clusterMap (s : State) (k : Nat) (c : Sett) : (s.setSett k c).clusterMap = s.clusterMap := rfl
@[simp] theorem State.setSett_hib (s : State) (k : Nat) (c : Sett) : (s.setSett k c).hib = s.hib := rfl
@[simp] theorem State.setSett_power (s : State) (k : Nat) (c : Sett) : (s.setSett k c).power = s.power := rfl
@[simp] theorem State.setSett_imageTails (s : State) (k : Nat) (c : Sett) : (s.setSett k c).imageTails = s.imageTails := rfl
@[simp] theorem State.setSett_imageWaits (s : State) (k : Nat) (c : Sett) : (s.setSett k c).imageWaits = s.imageWaits := rfl
@[simp] theorem State.setSett_measurements (s : State) (k : Nat) (c : Sett) : (s.setSett k c).measurements = s.measurements := rfl
@[simp] theorem State.setSett_out (s : State) (k : Nat) (c : Sett) : (s.setSett k c).out = s.out := rfl

@[simp] theorem State.setReq_cycle (s : State) (k : Nat) (r : Option Req) : (s.setReq k r).cycle = s.cycle := rfl
@[simp] theorem State.setReq_turn (s : State) (k : Nat) (r : Option Req) : (s.setReq k r).turn = s.turn := rfl
@[simp] theorem State.setReq_cur (s : State) (k : Nat) (r : Option Req) : (s.setReq k r).cur = s.cur := rfl
@[simp] theorem State.setReq_planned (s : State) (k : Nat) (r : Option Req) : (s.setReq k r).planned = s.planned := rfl
@[simp] theorem State.setReq_agenda (s : State) (k : Nat) (r : Option Req) : (s.setReq k r).agenda = s.agenda := rfl
@[simp] theorem State.setReq_draws (s : State) (k : Nat) (r : Option Req) : (s.setReq k r).draws = s.draws := rfl
@[simp] theorem State.setReq_crews (s : State) (k : Nat) (r : Option Req) : (s.setReq k r).crews = s.crews := rfl
@[simp] theorem State.setReq_blocks (s : State) (k : Nat) (r : Option Req) : (s.setReq k r).blocks = s.blocks := rfl
@[simp] theorem State.setReq_cores (s : State) (k : Nat) (r : Option Req) : (s.setReq k r).cores = s.cores := rfl
@[simp] theorem State.setReq_setts (s : State) (k : Nat) (r : Option Req) : (s.setReq k r).setts = s.setts := rfl
@[simp] theorem State.setReq_hbm (s : State) (k : Nat) (r : Option Req) : (s.setReq k r).hbm = s.hbm := rfl
@[simp] theorem State.setReq_hostMem (s : State) (k : Nat) (r : Option Req) : (s.setReq k r).hostMem = s.hostMem := rfl
@[simp] theorem State.setReq_sealed (s : State) (k : Nat) (r : Option Req) : (s.setReq k r).sealed = s.sealed := rfl
@[simp] theorem State.setReq_codeOld (s : State) (k : Nat) (r : Option Req) : (s.setReq k r).codeOld = s.codeOld := rfl
@[simp] theorem State.setReq_poison (s : State) (k : Nat) (r : Option Req) : (s.setReq k r).poison = s.poison := rfl
@[simp] theorem State.setReq_copies (s : State) (k : Nat) (r : Option Req) : (s.setReq k r).copies = s.copies := rfl
@[simp] theorem State.setReq_groups (s : State) (k : Nat) (r : Option Req) : (s.setReq k r).groups = s.groups := rfl
@[simp] theorem State.setReq_walks (s : State) (k : Nat) (r : Option Req) : (s.setReq k r).walks = s.walks := rfl
@[simp] theorem State.setReq_invs (s : State) (k : Nat) (r : Option Req) : (s.setReq k r).invs = s.invs := rfl
@[simp] theorem State.setReq_journals (s : State) (k : Nat) (r : Option Req) : (s.setReq k r).journals = s.journals := rfl
@[simp] theorem State.setReq_nextId (s : State) (k : Nat) (r : Option Req) : (s.setReq k r).nextId = s.nextId := rfl
@[simp] theorem State.setReq_links (s : State) (k : Nat) (r : Option Req) : (s.setReq k r).links = s.links := rfl
@[simp] theorem State.setReq_sessions (s : State) (k : Nat) (r : Option Req) : (s.setReq k r).sessions = s.sessions := rfl
@[simp] theorem State.setReq_hostUp (s : State) (k : Nat) (r : Option Req) : (s.setReq k r).hostUp = s.hostUp := rfl
@[simp] theorem State.setReq_cxlCache (s : State) (k : Nat) (r : Option Req) : (s.setReq k r).cxlCache = s.cxlCache := rfl
@[simp] theorem State.setReq_atomicOps (s : State) (k : Nat) (r : Option Req) : (s.setReq k r).atomicOps = s.atomicOps := rfl
@[simp] theorem State.setReq_portLines (s : State) (k : Nat) (r : Option Req) : (s.setReq k r).portLines = s.portLines := rfl
@[simp] theorem State.setReq_mapgen (s : State) (k : Nat) (r : Option Req) : (s.setReq k r).mapgen = s.mapgen := rfl
@[simp] theorem State.setReq_clusterMap (s : State) (k : Nat) (r : Option Req) : (s.setReq k r).clusterMap = s.clusterMap := rfl
@[simp] theorem State.setReq_hib (s : State) (k : Nat) (r : Option Req) : (s.setReq k r).hib = s.hib := rfl
@[simp] theorem State.setReq_power (s : State) (k : Nat) (r : Option Req) : (s.setReq k r).power = s.power := rfl
@[simp] theorem State.setReq_imageTails (s : State) (k : Nat) (r : Option Req) : (s.setReq k r).imageTails = s.imageTails := rfl
@[simp] theorem State.setReq_imageWaits (s : State) (k : Nat) (r : Option Req) : (s.setReq k r).imageWaits = s.imageWaits := rfl
@[simp] theorem State.setReq_measurements (s : State) (k : Nat) (r : Option Req) : (s.setReq k r).measurements = s.measurements := rfl
@[simp] theorem State.setReq_out (s : State) (k : Nat) (r : Option Req) : (s.setReq k r).out = s.out := rfl

@[simp] theorem State.setCopy_cycle (s : State) (k : Nat) (r : Option Copy) : (s.setCopy k r).cycle = s.cycle := rfl
@[simp] theorem State.setCopy_turn (s : State) (k : Nat) (r : Option Copy) : (s.setCopy k r).turn = s.turn := rfl
@[simp] theorem State.setCopy_cur (s : State) (k : Nat) (r : Option Copy) : (s.setCopy k r).cur = s.cur := rfl
@[simp] theorem State.setCopy_planned (s : State) (k : Nat) (r : Option Copy) : (s.setCopy k r).planned = s.planned := rfl
@[simp] theorem State.setCopy_agenda (s : State) (k : Nat) (r : Option Copy) : (s.setCopy k r).agenda = s.agenda := rfl
@[simp] theorem State.setCopy_draws (s : State) (k : Nat) (r : Option Copy) : (s.setCopy k r).draws = s.draws := rfl
@[simp] theorem State.setCopy_crews (s : State) (k : Nat) (r : Option Copy) : (s.setCopy k r).crews = s.crews := rfl
@[simp] theorem State.setCopy_blocks (s : State) (k : Nat) (r : Option Copy) : (s.setCopy k r).blocks = s.blocks := rfl
@[simp] theorem State.setCopy_cores (s : State) (k : Nat) (r : Option Copy) : (s.setCopy k r).cores = s.cores := rfl
@[simp] theorem State.setCopy_setts (s : State) (k : Nat) (r : Option Copy) : (s.setCopy k r).setts = s.setts := rfl
@[simp] theorem State.setCopy_hbm (s : State) (k : Nat) (r : Option Copy) : (s.setCopy k r).hbm = s.hbm := rfl
@[simp] theorem State.setCopy_hostMem (s : State) (k : Nat) (r : Option Copy) : (s.setCopy k r).hostMem = s.hostMem := rfl
@[simp] theorem State.setCopy_sealed (s : State) (k : Nat) (r : Option Copy) : (s.setCopy k r).sealed = s.sealed := rfl
@[simp] theorem State.setCopy_codeOld (s : State) (k : Nat) (r : Option Copy) : (s.setCopy k r).codeOld = s.codeOld := rfl
@[simp] theorem State.setCopy_poison (s : State) (k : Nat) (r : Option Copy) : (s.setCopy k r).poison = s.poison := rfl
@[simp] theorem State.setCopy_reqs (s : State) (k : Nat) (r : Option Copy) : (s.setCopy k r).reqs = s.reqs := rfl
@[simp] theorem State.setCopy_groups (s : State) (k : Nat) (r : Option Copy) : (s.setCopy k r).groups = s.groups := rfl
@[simp] theorem State.setCopy_walks (s : State) (k : Nat) (r : Option Copy) : (s.setCopy k r).walks = s.walks := rfl
@[simp] theorem State.setCopy_invs (s : State) (k : Nat) (r : Option Copy) : (s.setCopy k r).invs = s.invs := rfl
@[simp] theorem State.setCopy_journals (s : State) (k : Nat) (r : Option Copy) : (s.setCopy k r).journals = s.journals := rfl
@[simp] theorem State.setCopy_nextId (s : State) (k : Nat) (r : Option Copy) : (s.setCopy k r).nextId = s.nextId := rfl
@[simp] theorem State.setCopy_links (s : State) (k : Nat) (r : Option Copy) : (s.setCopy k r).links = s.links := rfl
@[simp] theorem State.setCopy_sessions (s : State) (k : Nat) (r : Option Copy) : (s.setCopy k r).sessions = s.sessions := rfl
@[simp] theorem State.setCopy_hostUp (s : State) (k : Nat) (r : Option Copy) : (s.setCopy k r).hostUp = s.hostUp := rfl
@[simp] theorem State.setCopy_cxlCache (s : State) (k : Nat) (r : Option Copy) : (s.setCopy k r).cxlCache = s.cxlCache := rfl
@[simp] theorem State.setCopy_atomicOps (s : State) (k : Nat) (r : Option Copy) : (s.setCopy k r).atomicOps = s.atomicOps := rfl
@[simp] theorem State.setCopy_portLines (s : State) (k : Nat) (r : Option Copy) : (s.setCopy k r).portLines = s.portLines := rfl
@[simp] theorem State.setCopy_mapgen (s : State) (k : Nat) (r : Option Copy) : (s.setCopy k r).mapgen = s.mapgen := rfl
@[simp] theorem State.setCopy_clusterMap (s : State) (k : Nat) (r : Option Copy) : (s.setCopy k r).clusterMap = s.clusterMap := rfl
@[simp] theorem State.setCopy_hib (s : State) (k : Nat) (r : Option Copy) : (s.setCopy k r).hib = s.hib := rfl
@[simp] theorem State.setCopy_power (s : State) (k : Nat) (r : Option Copy) : (s.setCopy k r).power = s.power := rfl
@[simp] theorem State.setCopy_imageTails (s : State) (k : Nat) (r : Option Copy) : (s.setCopy k r).imageTails = s.imageTails := rfl
@[simp] theorem State.setCopy_imageWaits (s : State) (k : Nat) (r : Option Copy) : (s.setCopy k r).imageWaits = s.imageWaits := rfl
@[simp] theorem State.setCopy_measurements (s : State) (k : Nat) (r : Option Copy) : (s.setCopy k r).measurements = s.measurements := rfl
@[simp] theorem State.setCopy_out (s : State) (k : Nat) (r : Option Copy) : (s.setCopy k r).out = s.out := rfl

@[simp] theorem State.setLink_cycle (s : State) (k : Nat) (l : Link) : (s.setLink k l).cycle = s.cycle := rfl
@[simp] theorem State.setLink_turn (s : State) (k : Nat) (l : Link) : (s.setLink k l).turn = s.turn := rfl
@[simp] theorem State.setLink_cur (s : State) (k : Nat) (l : Link) : (s.setLink k l).cur = s.cur := rfl
@[simp] theorem State.setLink_planned (s : State) (k : Nat) (l : Link) : (s.setLink k l).planned = s.planned := rfl
@[simp] theorem State.setLink_agenda (s : State) (k : Nat) (l : Link) : (s.setLink k l).agenda = s.agenda := rfl
@[simp] theorem State.setLink_draws (s : State) (k : Nat) (l : Link) : (s.setLink k l).draws = s.draws := rfl
@[simp] theorem State.setLink_crews (s : State) (k : Nat) (l : Link) : (s.setLink k l).crews = s.crews := rfl
@[simp] theorem State.setLink_blocks (s : State) (k : Nat) (l : Link) : (s.setLink k l).blocks = s.blocks := rfl
@[simp] theorem State.setLink_cores (s : State) (k : Nat) (l : Link) : (s.setLink k l).cores = s.cores := rfl
@[simp] theorem State.setLink_setts (s : State) (k : Nat) (l : Link) : (s.setLink k l).setts = s.setts := rfl
@[simp] theorem State.setLink_hbm (s : State) (k : Nat) (l : Link) : (s.setLink k l).hbm = s.hbm := rfl
@[simp] theorem State.setLink_hostMem (s : State) (k : Nat) (l : Link) : (s.setLink k l).hostMem = s.hostMem := rfl
@[simp] theorem State.setLink_sealed (s : State) (k : Nat) (l : Link) : (s.setLink k l).sealed = s.sealed := rfl
@[simp] theorem State.setLink_codeOld (s : State) (k : Nat) (l : Link) : (s.setLink k l).codeOld = s.codeOld := rfl
@[simp] theorem State.setLink_poison (s : State) (k : Nat) (l : Link) : (s.setLink k l).poison = s.poison := rfl
@[simp] theorem State.setLink_reqs (s : State) (k : Nat) (l : Link) : (s.setLink k l).reqs = s.reqs := rfl
@[simp] theorem State.setLink_copies (s : State) (k : Nat) (l : Link) : (s.setLink k l).copies = s.copies := rfl
@[simp] theorem State.setLink_groups (s : State) (k : Nat) (l : Link) : (s.setLink k l).groups = s.groups := rfl
@[simp] theorem State.setLink_walks (s : State) (k : Nat) (l : Link) : (s.setLink k l).walks = s.walks := rfl
@[simp] theorem State.setLink_invs (s : State) (k : Nat) (l : Link) : (s.setLink k l).invs = s.invs := rfl
@[simp] theorem State.setLink_journals (s : State) (k : Nat) (l : Link) : (s.setLink k l).journals = s.journals := rfl
@[simp] theorem State.setLink_nextId (s : State) (k : Nat) (l : Link) : (s.setLink k l).nextId = s.nextId := rfl
@[simp] theorem State.setLink_sessions (s : State) (k : Nat) (l : Link) : (s.setLink k l).sessions = s.sessions := rfl
@[simp] theorem State.setLink_hostUp (s : State) (k : Nat) (l : Link) : (s.setLink k l).hostUp = s.hostUp := rfl
@[simp] theorem State.setLink_cxlCache (s : State) (k : Nat) (l : Link) : (s.setLink k l).cxlCache = s.cxlCache := rfl
@[simp] theorem State.setLink_atomicOps (s : State) (k : Nat) (l : Link) : (s.setLink k l).atomicOps = s.atomicOps := rfl
@[simp] theorem State.setLink_portLines (s : State) (k : Nat) (l : Link) : (s.setLink k l).portLines = s.portLines := rfl
@[simp] theorem State.setLink_mapgen (s : State) (k : Nat) (l : Link) : (s.setLink k l).mapgen = s.mapgen := rfl
@[simp] theorem State.setLink_clusterMap (s : State) (k : Nat) (l : Link) : (s.setLink k l).clusterMap = s.clusterMap := rfl
@[simp] theorem State.setLink_hib (s : State) (k : Nat) (l : Link) : (s.setLink k l).hib = s.hib := rfl
@[simp] theorem State.setLink_power (s : State) (k : Nat) (l : Link) : (s.setLink k l).power = s.power := rfl
@[simp] theorem State.setLink_imageTails (s : State) (k : Nat) (l : Link) : (s.setLink k l).imageTails = s.imageTails := rfl
@[simp] theorem State.setLink_imageWaits (s : State) (k : Nat) (l : Link) : (s.setLink k l).imageWaits = s.imageWaits := rfl
@[simp] theorem State.setLink_measurements (s : State) (k : Nat) (l : Link) : (s.setLink k l).measurements = s.measurements := rfl
@[simp] theorem State.setLink_out (s : State) (k : Nat) (l : Link) : (s.setLink k l).out = s.out := rfl

@[simp] theorem State.modCrew_cycle (s : State) (k : Nat) (f : Crew → Crew) : (s.modCrew k f).cycle = s.cycle := rfl
@[simp] theorem State.modCrew_turn (s : State) (k : Nat) (f : Crew → Crew) : (s.modCrew k f).turn = s.turn := rfl
@[simp] theorem State.modCrew_cur (s : State) (k : Nat) (f : Crew → Crew) : (s.modCrew k f).cur = s.cur := rfl
@[simp] theorem State.modCrew_planned (s : State) (k : Nat) (f : Crew → Crew) : (s.modCrew k f).planned = s.planned := rfl
@[simp] theorem State.modCrew_agenda (s : State) (k : Nat) (f : Crew → Crew) : (s.modCrew k f).agenda = s.agenda := rfl
@[simp] theorem State.modCrew_draws (s : State) (k : Nat) (f : Crew → Crew) : (s.modCrew k f).draws = s.draws := rfl
@[simp] theorem State.modCrew_blocks (s : State) (k : Nat) (f : Crew → Crew) : (s.modCrew k f).blocks = s.blocks := rfl
@[simp] theorem State.modCrew_cores (s : State) (k : Nat) (f : Crew → Crew) : (s.modCrew k f).cores = s.cores := rfl
@[simp] theorem State.modCrew_setts (s : State) (k : Nat) (f : Crew → Crew) : (s.modCrew k f).setts = s.setts := rfl
@[simp] theorem State.modCrew_hbm (s : State) (k : Nat) (f : Crew → Crew) : (s.modCrew k f).hbm = s.hbm := rfl
@[simp] theorem State.modCrew_hostMem (s : State) (k : Nat) (f : Crew → Crew) : (s.modCrew k f).hostMem = s.hostMem := rfl
@[simp] theorem State.modCrew_sealed (s : State) (k : Nat) (f : Crew → Crew) : (s.modCrew k f).sealed = s.sealed := rfl
@[simp] theorem State.modCrew_codeOld (s : State) (k : Nat) (f : Crew → Crew) : (s.modCrew k f).codeOld = s.codeOld := rfl
@[simp] theorem State.modCrew_poison (s : State) (k : Nat) (f : Crew → Crew) : (s.modCrew k f).poison = s.poison := rfl
@[simp] theorem State.modCrew_reqs (s : State) (k : Nat) (f : Crew → Crew) : (s.modCrew k f).reqs = s.reqs := rfl
@[simp] theorem State.modCrew_copies (s : State) (k : Nat) (f : Crew → Crew) : (s.modCrew k f).copies = s.copies := rfl
@[simp] theorem State.modCrew_groups (s : State) (k : Nat) (f : Crew → Crew) : (s.modCrew k f).groups = s.groups := rfl
@[simp] theorem State.modCrew_walks (s : State) (k : Nat) (f : Crew → Crew) : (s.modCrew k f).walks = s.walks := rfl
@[simp] theorem State.modCrew_invs (s : State) (k : Nat) (f : Crew → Crew) : (s.modCrew k f).invs = s.invs := rfl
@[simp] theorem State.modCrew_journals (s : State) (k : Nat) (f : Crew → Crew) : (s.modCrew k f).journals = s.journals := rfl
@[simp] theorem State.modCrew_nextId (s : State) (k : Nat) (f : Crew → Crew) : (s.modCrew k f).nextId = s.nextId := rfl
@[simp] theorem State.modCrew_links (s : State) (k : Nat) (f : Crew → Crew) : (s.modCrew k f).links = s.links := rfl
@[simp] theorem State.modCrew_sessions (s : State) (k : Nat) (f : Crew → Crew) : (s.modCrew k f).sessions = s.sessions := rfl
@[simp] theorem State.modCrew_hostUp (s : State) (k : Nat) (f : Crew → Crew) : (s.modCrew k f).hostUp = s.hostUp := rfl
@[simp] theorem State.modCrew_cxlCache (s : State) (k : Nat) (f : Crew → Crew) : (s.modCrew k f).cxlCache = s.cxlCache := rfl
@[simp] theorem State.modCrew_atomicOps (s : State) (k : Nat) (f : Crew → Crew) : (s.modCrew k f).atomicOps = s.atomicOps := rfl
@[simp] theorem State.modCrew_portLines (s : State) (k : Nat) (f : Crew → Crew) : (s.modCrew k f).portLines = s.portLines := rfl
@[simp] theorem State.modCrew_mapgen (s : State) (k : Nat) (f : Crew → Crew) : (s.modCrew k f).mapgen = s.mapgen := rfl
@[simp] theorem State.modCrew_clusterMap (s : State) (k : Nat) (f : Crew → Crew) : (s.modCrew k f).clusterMap = s.clusterMap := rfl
@[simp] theorem State.modCrew_hib (s : State) (k : Nat) (f : Crew → Crew) : (s.modCrew k f).hib = s.hib := rfl
@[simp] theorem State.modCrew_power (s : State) (k : Nat) (f : Crew → Crew) : (s.modCrew k f).power = s.power := rfl
@[simp] theorem State.modCrew_imageTails (s : State) (k : Nat) (f : Crew → Crew) : (s.modCrew k f).imageTails = s.imageTails := rfl
@[simp] theorem State.modCrew_imageWaits (s : State) (k : Nat) (f : Crew → Crew) : (s.modCrew k f).imageWaits = s.imageWaits := rfl
@[simp] theorem State.modCrew_measurements (s : State) (k : Nat) (f : Crew → Crew) : (s.modCrew k f).measurements = s.measurements := rfl
@[simp] theorem State.modCrew_out (s : State) (k : Nat) (f : Crew → Crew) : (s.modCrew k f).out = s.out := rfl

@[simp] theorem State.modBlock_cycle (s : State) (k : Nat) (f : Block → Block) : (s.modBlock k f).cycle = s.cycle := rfl
@[simp] theorem State.modBlock_turn (s : State) (k : Nat) (f : Block → Block) : (s.modBlock k f).turn = s.turn := rfl
@[simp] theorem State.modBlock_cur (s : State) (k : Nat) (f : Block → Block) : (s.modBlock k f).cur = s.cur := rfl
@[simp] theorem State.modBlock_planned (s : State) (k : Nat) (f : Block → Block) : (s.modBlock k f).planned = s.planned := rfl
@[simp] theorem State.modBlock_agenda (s : State) (k : Nat) (f : Block → Block) : (s.modBlock k f).agenda = s.agenda := rfl
@[simp] theorem State.modBlock_draws (s : State) (k : Nat) (f : Block → Block) : (s.modBlock k f).draws = s.draws := rfl
@[simp] theorem State.modBlock_crews (s : State) (k : Nat) (f : Block → Block) : (s.modBlock k f).crews = s.crews := rfl
@[simp] theorem State.modBlock_cores (s : State) (k : Nat) (f : Block → Block) : (s.modBlock k f).cores = s.cores := rfl
@[simp] theorem State.modBlock_setts (s : State) (k : Nat) (f : Block → Block) : (s.modBlock k f).setts = s.setts := rfl
@[simp] theorem State.modBlock_hbm (s : State) (k : Nat) (f : Block → Block) : (s.modBlock k f).hbm = s.hbm := rfl
@[simp] theorem State.modBlock_hostMem (s : State) (k : Nat) (f : Block → Block) : (s.modBlock k f).hostMem = s.hostMem := rfl
@[simp] theorem State.modBlock_sealed (s : State) (k : Nat) (f : Block → Block) : (s.modBlock k f).sealed = s.sealed := rfl
@[simp] theorem State.modBlock_codeOld (s : State) (k : Nat) (f : Block → Block) : (s.modBlock k f).codeOld = s.codeOld := rfl
@[simp] theorem State.modBlock_poison (s : State) (k : Nat) (f : Block → Block) : (s.modBlock k f).poison = s.poison := rfl
@[simp] theorem State.modBlock_reqs (s : State) (k : Nat) (f : Block → Block) : (s.modBlock k f).reqs = s.reqs := rfl
@[simp] theorem State.modBlock_copies (s : State) (k : Nat) (f : Block → Block) : (s.modBlock k f).copies = s.copies := rfl
@[simp] theorem State.modBlock_groups (s : State) (k : Nat) (f : Block → Block) : (s.modBlock k f).groups = s.groups := rfl
@[simp] theorem State.modBlock_walks (s : State) (k : Nat) (f : Block → Block) : (s.modBlock k f).walks = s.walks := rfl
@[simp] theorem State.modBlock_invs (s : State) (k : Nat) (f : Block → Block) : (s.modBlock k f).invs = s.invs := rfl
@[simp] theorem State.modBlock_journals (s : State) (k : Nat) (f : Block → Block) : (s.modBlock k f).journals = s.journals := rfl
@[simp] theorem State.modBlock_nextId (s : State) (k : Nat) (f : Block → Block) : (s.modBlock k f).nextId = s.nextId := rfl
@[simp] theorem State.modBlock_links (s : State) (k : Nat) (f : Block → Block) : (s.modBlock k f).links = s.links := rfl
@[simp] theorem State.modBlock_sessions (s : State) (k : Nat) (f : Block → Block) : (s.modBlock k f).sessions = s.sessions := rfl
@[simp] theorem State.modBlock_hostUp (s : State) (k : Nat) (f : Block → Block) : (s.modBlock k f).hostUp = s.hostUp := rfl
@[simp] theorem State.modBlock_cxlCache (s : State) (k : Nat) (f : Block → Block) : (s.modBlock k f).cxlCache = s.cxlCache := rfl
@[simp] theorem State.modBlock_atomicOps (s : State) (k : Nat) (f : Block → Block) : (s.modBlock k f).atomicOps = s.atomicOps := rfl
@[simp] theorem State.modBlock_portLines (s : State) (k : Nat) (f : Block → Block) : (s.modBlock k f).portLines = s.portLines := rfl
@[simp] theorem State.modBlock_mapgen (s : State) (k : Nat) (f : Block → Block) : (s.modBlock k f).mapgen = s.mapgen := rfl
@[simp] theorem State.modBlock_clusterMap (s : State) (k : Nat) (f : Block → Block) : (s.modBlock k f).clusterMap = s.clusterMap := rfl
@[simp] theorem State.modBlock_hib (s : State) (k : Nat) (f : Block → Block) : (s.modBlock k f).hib = s.hib := rfl
@[simp] theorem State.modBlock_power (s : State) (k : Nat) (f : Block → Block) : (s.modBlock k f).power = s.power := rfl
@[simp] theorem State.modBlock_imageTails (s : State) (k : Nat) (f : Block → Block) : (s.modBlock k f).imageTails = s.imageTails := rfl
@[simp] theorem State.modBlock_imageWaits (s : State) (k : Nat) (f : Block → Block) : (s.modBlock k f).imageWaits = s.imageWaits := rfl
@[simp] theorem State.modBlock_measurements (s : State) (k : Nat) (f : Block → Block) : (s.modBlock k f).measurements = s.measurements := rfl
@[simp] theorem State.modBlock_out (s : State) (k : Nat) (f : Block → Block) : (s.modBlock k f).out = s.out := rfl

@[simp] theorem State.modCore_cycle (s : State) (k : Nat) (f : Core → Core) : (s.modCore k f).cycle = s.cycle := rfl
@[simp] theorem State.modCore_turn (s : State) (k : Nat) (f : Core → Core) : (s.modCore k f).turn = s.turn := rfl
@[simp] theorem State.modCore_cur (s : State) (k : Nat) (f : Core → Core) : (s.modCore k f).cur = s.cur := rfl
@[simp] theorem State.modCore_planned (s : State) (k : Nat) (f : Core → Core) : (s.modCore k f).planned = s.planned := rfl
@[simp] theorem State.modCore_agenda (s : State) (k : Nat) (f : Core → Core) : (s.modCore k f).agenda = s.agenda := rfl
@[simp] theorem State.modCore_draws (s : State) (k : Nat) (f : Core → Core) : (s.modCore k f).draws = s.draws := rfl
@[simp] theorem State.modCore_crews (s : State) (k : Nat) (f : Core → Core) : (s.modCore k f).crews = s.crews := rfl
@[simp] theorem State.modCore_blocks (s : State) (k : Nat) (f : Core → Core) : (s.modCore k f).blocks = s.blocks := rfl
@[simp] theorem State.modCore_setts (s : State) (k : Nat) (f : Core → Core) : (s.modCore k f).setts = s.setts := rfl
@[simp] theorem State.modCore_hbm (s : State) (k : Nat) (f : Core → Core) : (s.modCore k f).hbm = s.hbm := rfl
@[simp] theorem State.modCore_hostMem (s : State) (k : Nat) (f : Core → Core) : (s.modCore k f).hostMem = s.hostMem := rfl
@[simp] theorem State.modCore_sealed (s : State) (k : Nat) (f : Core → Core) : (s.modCore k f).sealed = s.sealed := rfl
@[simp] theorem State.modCore_codeOld (s : State) (k : Nat) (f : Core → Core) : (s.modCore k f).codeOld = s.codeOld := rfl
@[simp] theorem State.modCore_poison (s : State) (k : Nat) (f : Core → Core) : (s.modCore k f).poison = s.poison := rfl
@[simp] theorem State.modCore_reqs (s : State) (k : Nat) (f : Core → Core) : (s.modCore k f).reqs = s.reqs := rfl
@[simp] theorem State.modCore_copies (s : State) (k : Nat) (f : Core → Core) : (s.modCore k f).copies = s.copies := rfl
@[simp] theorem State.modCore_groups (s : State) (k : Nat) (f : Core → Core) : (s.modCore k f).groups = s.groups := rfl
@[simp] theorem State.modCore_walks (s : State) (k : Nat) (f : Core → Core) : (s.modCore k f).walks = s.walks := rfl
@[simp] theorem State.modCore_invs (s : State) (k : Nat) (f : Core → Core) : (s.modCore k f).invs = s.invs := rfl
@[simp] theorem State.modCore_journals (s : State) (k : Nat) (f : Core → Core) : (s.modCore k f).journals = s.journals := rfl
@[simp] theorem State.modCore_nextId (s : State) (k : Nat) (f : Core → Core) : (s.modCore k f).nextId = s.nextId := rfl
@[simp] theorem State.modCore_links (s : State) (k : Nat) (f : Core → Core) : (s.modCore k f).links = s.links := rfl
@[simp] theorem State.modCore_sessions (s : State) (k : Nat) (f : Core → Core) : (s.modCore k f).sessions = s.sessions := rfl
@[simp] theorem State.modCore_hostUp (s : State) (k : Nat) (f : Core → Core) : (s.modCore k f).hostUp = s.hostUp := rfl
@[simp] theorem State.modCore_cxlCache (s : State) (k : Nat) (f : Core → Core) : (s.modCore k f).cxlCache = s.cxlCache := rfl
@[simp] theorem State.modCore_atomicOps (s : State) (k : Nat) (f : Core → Core) : (s.modCore k f).atomicOps = s.atomicOps := rfl
@[simp] theorem State.modCore_portLines (s : State) (k : Nat) (f : Core → Core) : (s.modCore k f).portLines = s.portLines := rfl
@[simp] theorem State.modCore_mapgen (s : State) (k : Nat) (f : Core → Core) : (s.modCore k f).mapgen = s.mapgen := rfl
@[simp] theorem State.modCore_clusterMap (s : State) (k : Nat) (f : Core → Core) : (s.modCore k f).clusterMap = s.clusterMap := rfl
@[simp] theorem State.modCore_hib (s : State) (k : Nat) (f : Core → Core) : (s.modCore k f).hib = s.hib := rfl
@[simp] theorem State.modCore_power (s : State) (k : Nat) (f : Core → Core) : (s.modCore k f).power = s.power := rfl
@[simp] theorem State.modCore_imageTails (s : State) (k : Nat) (f : Core → Core) : (s.modCore k f).imageTails = s.imageTails := rfl
@[simp] theorem State.modCore_imageWaits (s : State) (k : Nat) (f : Core → Core) : (s.modCore k f).imageWaits = s.imageWaits := rfl
@[simp] theorem State.modCore_measurements (s : State) (k : Nat) (f : Core → Core) : (s.modCore k f).measurements = s.measurements := rfl
@[simp] theorem State.modCore_out (s : State) (k : Nat) (f : Core → Core) : (s.modCore k f).out = s.out := rfl

@[simp] theorem State.modSett_cycle (s : State) (k : Nat) (f : Sett → Sett) : (s.modSett k f).cycle = s.cycle := rfl
@[simp] theorem State.modSett_turn (s : State) (k : Nat) (f : Sett → Sett) : (s.modSett k f).turn = s.turn := rfl
@[simp] theorem State.modSett_cur (s : State) (k : Nat) (f : Sett → Sett) : (s.modSett k f).cur = s.cur := rfl
@[simp] theorem State.modSett_planned (s : State) (k : Nat) (f : Sett → Sett) : (s.modSett k f).planned = s.planned := rfl
@[simp] theorem State.modSett_agenda (s : State) (k : Nat) (f : Sett → Sett) : (s.modSett k f).agenda = s.agenda := rfl
@[simp] theorem State.modSett_draws (s : State) (k : Nat) (f : Sett → Sett) : (s.modSett k f).draws = s.draws := rfl
@[simp] theorem State.modSett_crews (s : State) (k : Nat) (f : Sett → Sett) : (s.modSett k f).crews = s.crews := rfl
@[simp] theorem State.modSett_blocks (s : State) (k : Nat) (f : Sett → Sett) : (s.modSett k f).blocks = s.blocks := rfl
@[simp] theorem State.modSett_cores (s : State) (k : Nat) (f : Sett → Sett) : (s.modSett k f).cores = s.cores := rfl
@[simp] theorem State.modSett_hbm (s : State) (k : Nat) (f : Sett → Sett) : (s.modSett k f).hbm = s.hbm := rfl
@[simp] theorem State.modSett_hostMem (s : State) (k : Nat) (f : Sett → Sett) : (s.modSett k f).hostMem = s.hostMem := rfl
@[simp] theorem State.modSett_sealed (s : State) (k : Nat) (f : Sett → Sett) : (s.modSett k f).sealed = s.sealed := rfl
@[simp] theorem State.modSett_codeOld (s : State) (k : Nat) (f : Sett → Sett) : (s.modSett k f).codeOld = s.codeOld := rfl
@[simp] theorem State.modSett_poison (s : State) (k : Nat) (f : Sett → Sett) : (s.modSett k f).poison = s.poison := rfl
@[simp] theorem State.modSett_reqs (s : State) (k : Nat) (f : Sett → Sett) : (s.modSett k f).reqs = s.reqs := rfl
@[simp] theorem State.modSett_copies (s : State) (k : Nat) (f : Sett → Sett) : (s.modSett k f).copies = s.copies := rfl
@[simp] theorem State.modSett_groups (s : State) (k : Nat) (f : Sett → Sett) : (s.modSett k f).groups = s.groups := rfl
@[simp] theorem State.modSett_walks (s : State) (k : Nat) (f : Sett → Sett) : (s.modSett k f).walks = s.walks := rfl
@[simp] theorem State.modSett_invs (s : State) (k : Nat) (f : Sett → Sett) : (s.modSett k f).invs = s.invs := rfl
@[simp] theorem State.modSett_journals (s : State) (k : Nat) (f : Sett → Sett) : (s.modSett k f).journals = s.journals := rfl
@[simp] theorem State.modSett_nextId (s : State) (k : Nat) (f : Sett → Sett) : (s.modSett k f).nextId = s.nextId := rfl
@[simp] theorem State.modSett_links (s : State) (k : Nat) (f : Sett → Sett) : (s.modSett k f).links = s.links := rfl
@[simp] theorem State.modSett_sessions (s : State) (k : Nat) (f : Sett → Sett) : (s.modSett k f).sessions = s.sessions := rfl
@[simp] theorem State.modSett_hostUp (s : State) (k : Nat) (f : Sett → Sett) : (s.modSett k f).hostUp = s.hostUp := rfl
@[simp] theorem State.modSett_cxlCache (s : State) (k : Nat) (f : Sett → Sett) : (s.modSett k f).cxlCache = s.cxlCache := rfl
@[simp] theorem State.modSett_atomicOps (s : State) (k : Nat) (f : Sett → Sett) : (s.modSett k f).atomicOps = s.atomicOps := rfl
@[simp] theorem State.modSett_portLines (s : State) (k : Nat) (f : Sett → Sett) : (s.modSett k f).portLines = s.portLines := rfl
@[simp] theorem State.modSett_mapgen (s : State) (k : Nat) (f : Sett → Sett) : (s.modSett k f).mapgen = s.mapgen := rfl
@[simp] theorem State.modSett_clusterMap (s : State) (k : Nat) (f : Sett → Sett) : (s.modSett k f).clusterMap = s.clusterMap := rfl
@[simp] theorem State.modSett_hib (s : State) (k : Nat) (f : Sett → Sett) : (s.modSett k f).hib = s.hib := rfl
@[simp] theorem State.modSett_power (s : State) (k : Nat) (f : Sett → Sett) : (s.modSett k f).power = s.power := rfl
@[simp] theorem State.modSett_imageTails (s : State) (k : Nat) (f : Sett → Sett) : (s.modSett k f).imageTails = s.imageTails := rfl
@[simp] theorem State.modSett_imageWaits (s : State) (k : Nat) (f : Sett → Sett) : (s.modSett k f).imageWaits = s.imageWaits := rfl
@[simp] theorem State.modSett_measurements (s : State) (k : Nat) (f : Sett → Sett) : (s.modSett k f).measurements = s.measurements := rfl
@[simp] theorem State.modSett_out (s : State) (k : Nat) (f : Sett → Sett) : (s.modSett k f).out = s.out := rfl

@[simp] theorem State.modReq_cycle (s : State) (k : Nat) (f : Req → Req) : (s.modReq k f).cycle = s.cycle := by unfold State.modReq; split <;> rfl
@[simp] theorem State.modReq_turn (s : State) (k : Nat) (f : Req → Req) : (s.modReq k f).turn = s.turn := by unfold State.modReq; split <;> rfl
@[simp] theorem State.modReq_cur (s : State) (k : Nat) (f : Req → Req) : (s.modReq k f).cur = s.cur := by unfold State.modReq; split <;> rfl
@[simp] theorem State.modReq_planned (s : State) (k : Nat) (f : Req → Req) : (s.modReq k f).planned = s.planned := by unfold State.modReq; split <;> rfl
@[simp] theorem State.modReq_agenda (s : State) (k : Nat) (f : Req → Req) : (s.modReq k f).agenda = s.agenda := by unfold State.modReq; split <;> rfl
@[simp] theorem State.modReq_draws (s : State) (k : Nat) (f : Req → Req) : (s.modReq k f).draws = s.draws := by unfold State.modReq; split <;> rfl
@[simp] theorem State.modReq_crews (s : State) (k : Nat) (f : Req → Req) : (s.modReq k f).crews = s.crews := by unfold State.modReq; split <;> rfl
@[simp] theorem State.modReq_blocks (s : State) (k : Nat) (f : Req → Req) : (s.modReq k f).blocks = s.blocks := by unfold State.modReq; split <;> rfl
@[simp] theorem State.modReq_cores (s : State) (k : Nat) (f : Req → Req) : (s.modReq k f).cores = s.cores := by unfold State.modReq; split <;> rfl
@[simp] theorem State.modReq_setts (s : State) (k : Nat) (f : Req → Req) : (s.modReq k f).setts = s.setts := by unfold State.modReq; split <;> rfl
@[simp] theorem State.modReq_hbm (s : State) (k : Nat) (f : Req → Req) : (s.modReq k f).hbm = s.hbm := by unfold State.modReq; split <;> rfl
@[simp] theorem State.modReq_hostMem (s : State) (k : Nat) (f : Req → Req) : (s.modReq k f).hostMem = s.hostMem := by unfold State.modReq; split <;> rfl
@[simp] theorem State.modReq_sealed (s : State) (k : Nat) (f : Req → Req) : (s.modReq k f).sealed = s.sealed := by unfold State.modReq; split <;> rfl
@[simp] theorem State.modReq_codeOld (s : State) (k : Nat) (f : Req → Req) : (s.modReq k f).codeOld = s.codeOld := by unfold State.modReq; split <;> rfl
@[simp] theorem State.modReq_poison (s : State) (k : Nat) (f : Req → Req) : (s.modReq k f).poison = s.poison := by unfold State.modReq; split <;> rfl
@[simp] theorem State.modReq_copies (s : State) (k : Nat) (f : Req → Req) : (s.modReq k f).copies = s.copies := by unfold State.modReq; split <;> rfl
@[simp] theorem State.modReq_groups (s : State) (k : Nat) (f : Req → Req) : (s.modReq k f).groups = s.groups := by unfold State.modReq; split <;> rfl
@[simp] theorem State.modReq_walks (s : State) (k : Nat) (f : Req → Req) : (s.modReq k f).walks = s.walks := by unfold State.modReq; split <;> rfl
@[simp] theorem State.modReq_invs (s : State) (k : Nat) (f : Req → Req) : (s.modReq k f).invs = s.invs := by unfold State.modReq; split <;> rfl
@[simp] theorem State.modReq_journals (s : State) (k : Nat) (f : Req → Req) : (s.modReq k f).journals = s.journals := by unfold State.modReq; split <;> rfl
@[simp] theorem State.modReq_nextId (s : State) (k : Nat) (f : Req → Req) : (s.modReq k f).nextId = s.nextId := by unfold State.modReq; split <;> rfl
@[simp] theorem State.modReq_links (s : State) (k : Nat) (f : Req → Req) : (s.modReq k f).links = s.links := by unfold State.modReq; split <;> rfl
@[simp] theorem State.modReq_sessions (s : State) (k : Nat) (f : Req → Req) : (s.modReq k f).sessions = s.sessions := by unfold State.modReq; split <;> rfl
@[simp] theorem State.modReq_hostUp (s : State) (k : Nat) (f : Req → Req) : (s.modReq k f).hostUp = s.hostUp := by unfold State.modReq; split <;> rfl
@[simp] theorem State.modReq_cxlCache (s : State) (k : Nat) (f : Req → Req) : (s.modReq k f).cxlCache = s.cxlCache := by unfold State.modReq; split <;> rfl
@[simp] theorem State.modReq_atomicOps (s : State) (k : Nat) (f : Req → Req) : (s.modReq k f).atomicOps = s.atomicOps := by unfold State.modReq; split <;> rfl
@[simp] theorem State.modReq_portLines (s : State) (k : Nat) (f : Req → Req) : (s.modReq k f).portLines = s.portLines := by unfold State.modReq; split <;> rfl
@[simp] theorem State.modReq_mapgen (s : State) (k : Nat) (f : Req → Req) : (s.modReq k f).mapgen = s.mapgen := by unfold State.modReq; split <;> rfl
@[simp] theorem State.modReq_clusterMap (s : State) (k : Nat) (f : Req → Req) : (s.modReq k f).clusterMap = s.clusterMap := by unfold State.modReq; split <;> rfl
@[simp] theorem State.modReq_hib (s : State) (k : Nat) (f : Req → Req) : (s.modReq k f).hib = s.hib := by unfold State.modReq; split <;> rfl
@[simp] theorem State.modReq_power (s : State) (k : Nat) (f : Req → Req) : (s.modReq k f).power = s.power := by unfold State.modReq; split <;> rfl
@[simp] theorem State.modReq_imageTails (s : State) (k : Nat) (f : Req → Req) : (s.modReq k f).imageTails = s.imageTails := by unfold State.modReq; split <;> rfl
@[simp] theorem State.modReq_imageWaits (s : State) (k : Nat) (f : Req → Req) : (s.modReq k f).imageWaits = s.imageWaits := by unfold State.modReq; split <;> rfl
@[simp] theorem State.modReq_measurements (s : State) (k : Nat) (f : Req → Req) : (s.modReq k f).measurements = s.measurements := by unfold State.modReq; split <;> rfl
@[simp] theorem State.modReq_out (s : State) (k : Nat) (f : Req → Req) : (s.modReq k f).out = s.out := by unfold State.modReq; split <;> rfl

@[simp] theorem State.modCopy_cycle (s : State) (k : Nat) (f : Copy → Copy) : (s.modCopy k f).cycle = s.cycle := by unfold State.modCopy; split <;> rfl
@[simp] theorem State.modCopy_turn (s : State) (k : Nat) (f : Copy → Copy) : (s.modCopy k f).turn = s.turn := by unfold State.modCopy; split <;> rfl
@[simp] theorem State.modCopy_cur (s : State) (k : Nat) (f : Copy → Copy) : (s.modCopy k f).cur = s.cur := by unfold State.modCopy; split <;> rfl
@[simp] theorem State.modCopy_planned (s : State) (k : Nat) (f : Copy → Copy) : (s.modCopy k f).planned = s.planned := by unfold State.modCopy; split <;> rfl
@[simp] theorem State.modCopy_agenda (s : State) (k : Nat) (f : Copy → Copy) : (s.modCopy k f).agenda = s.agenda := by unfold State.modCopy; split <;> rfl
@[simp] theorem State.modCopy_draws (s : State) (k : Nat) (f : Copy → Copy) : (s.modCopy k f).draws = s.draws := by unfold State.modCopy; split <;> rfl
@[simp] theorem State.modCopy_crews (s : State) (k : Nat) (f : Copy → Copy) : (s.modCopy k f).crews = s.crews := by unfold State.modCopy; split <;> rfl
@[simp] theorem State.modCopy_blocks (s : State) (k : Nat) (f : Copy → Copy) : (s.modCopy k f).blocks = s.blocks := by unfold State.modCopy; split <;> rfl
@[simp] theorem State.modCopy_cores (s : State) (k : Nat) (f : Copy → Copy) : (s.modCopy k f).cores = s.cores := by unfold State.modCopy; split <;> rfl
@[simp] theorem State.modCopy_setts (s : State) (k : Nat) (f : Copy → Copy) : (s.modCopy k f).setts = s.setts := by unfold State.modCopy; split <;> rfl
@[simp] theorem State.modCopy_hbm (s : State) (k : Nat) (f : Copy → Copy) : (s.modCopy k f).hbm = s.hbm := by unfold State.modCopy; split <;> rfl
@[simp] theorem State.modCopy_hostMem (s : State) (k : Nat) (f : Copy → Copy) : (s.modCopy k f).hostMem = s.hostMem := by unfold State.modCopy; split <;> rfl
@[simp] theorem State.modCopy_sealed (s : State) (k : Nat) (f : Copy → Copy) : (s.modCopy k f).sealed = s.sealed := by unfold State.modCopy; split <;> rfl
@[simp] theorem State.modCopy_codeOld (s : State) (k : Nat) (f : Copy → Copy) : (s.modCopy k f).codeOld = s.codeOld := by unfold State.modCopy; split <;> rfl
@[simp] theorem State.modCopy_poison (s : State) (k : Nat) (f : Copy → Copy) : (s.modCopy k f).poison = s.poison := by unfold State.modCopy; split <;> rfl
@[simp] theorem State.modCopy_reqs (s : State) (k : Nat) (f : Copy → Copy) : (s.modCopy k f).reqs = s.reqs := by unfold State.modCopy; split <;> rfl
@[simp] theorem State.modCopy_groups (s : State) (k : Nat) (f : Copy → Copy) : (s.modCopy k f).groups = s.groups := by unfold State.modCopy; split <;> rfl
@[simp] theorem State.modCopy_walks (s : State) (k : Nat) (f : Copy → Copy) : (s.modCopy k f).walks = s.walks := by unfold State.modCopy; split <;> rfl
@[simp] theorem State.modCopy_invs (s : State) (k : Nat) (f : Copy → Copy) : (s.modCopy k f).invs = s.invs := by unfold State.modCopy; split <;> rfl
@[simp] theorem State.modCopy_journals (s : State) (k : Nat) (f : Copy → Copy) : (s.modCopy k f).journals = s.journals := by unfold State.modCopy; split <;> rfl
@[simp] theorem State.modCopy_nextId (s : State) (k : Nat) (f : Copy → Copy) : (s.modCopy k f).nextId = s.nextId := by unfold State.modCopy; split <;> rfl
@[simp] theorem State.modCopy_links (s : State) (k : Nat) (f : Copy → Copy) : (s.modCopy k f).links = s.links := by unfold State.modCopy; split <;> rfl
@[simp] theorem State.modCopy_sessions (s : State) (k : Nat) (f : Copy → Copy) : (s.modCopy k f).sessions = s.sessions := by unfold State.modCopy; split <;> rfl
@[simp] theorem State.modCopy_hostUp (s : State) (k : Nat) (f : Copy → Copy) : (s.modCopy k f).hostUp = s.hostUp := by unfold State.modCopy; split <;> rfl
@[simp] theorem State.modCopy_cxlCache (s : State) (k : Nat) (f : Copy → Copy) : (s.modCopy k f).cxlCache = s.cxlCache := by unfold State.modCopy; split <;> rfl
@[simp] theorem State.modCopy_atomicOps (s : State) (k : Nat) (f : Copy → Copy) : (s.modCopy k f).atomicOps = s.atomicOps := by unfold State.modCopy; split <;> rfl
@[simp] theorem State.modCopy_portLines (s : State) (k : Nat) (f : Copy → Copy) : (s.modCopy k f).portLines = s.portLines := by unfold State.modCopy; split <;> rfl
@[simp] theorem State.modCopy_mapgen (s : State) (k : Nat) (f : Copy → Copy) : (s.modCopy k f).mapgen = s.mapgen := by unfold State.modCopy; split <;> rfl
@[simp] theorem State.modCopy_clusterMap (s : State) (k : Nat) (f : Copy → Copy) : (s.modCopy k f).clusterMap = s.clusterMap := by unfold State.modCopy; split <;> rfl
@[simp] theorem State.modCopy_hib (s : State) (k : Nat) (f : Copy → Copy) : (s.modCopy k f).hib = s.hib := by unfold State.modCopy; split <;> rfl
@[simp] theorem State.modCopy_power (s : State) (k : Nat) (f : Copy → Copy) : (s.modCopy k f).power = s.power := by unfold State.modCopy; split <;> rfl
@[simp] theorem State.modCopy_imageTails (s : State) (k : Nat) (f : Copy → Copy) : (s.modCopy k f).imageTails = s.imageTails := by unfold State.modCopy; split <;> rfl
@[simp] theorem State.modCopy_imageWaits (s : State) (k : Nat) (f : Copy → Copy) : (s.modCopy k f).imageWaits = s.imageWaits := by unfold State.modCopy; split <;> rfl
@[simp] theorem State.modCopy_measurements (s : State) (k : Nat) (f : Copy → Copy) : (s.modCopy k f).measurements = s.measurements := by unfold State.modCopy; split <;> rfl
@[simp] theorem State.modCopy_out (s : State) (k : Nat) (f : Copy → Copy) : (s.modCopy k f).out = s.out := by unfold State.modCopy; split <;> rfl

@[simp] theorem State.schedule_cycle (s : State) (d k : Nat) (e : Event) : (s.schedule d k e).cycle = s.cycle := rfl
@[simp] theorem State.schedule_turn (s : State) (d k : Nat) (e : Event) : (s.schedule d k e).turn = s.turn := rfl
@[simp] theorem State.schedule_cur (s : State) (d k : Nat) (e : Event) : (s.schedule d k e).cur = s.cur := rfl
@[simp] theorem State.schedule_planned (s : State) (d k : Nat) (e : Event) : (s.schedule d k e).planned = s.planned := rfl
@[simp] theorem State.schedule_draws (s : State) (d k : Nat) (e : Event) : (s.schedule d k e).draws = s.draws := rfl
@[simp] theorem State.schedule_crews (s : State) (d k : Nat) (e : Event) : (s.schedule d k e).crews = s.crews := rfl
@[simp] theorem State.schedule_blocks (s : State) (d k : Nat) (e : Event) : (s.schedule d k e).blocks = s.blocks := rfl
@[simp] theorem State.schedule_cores (s : State) (d k : Nat) (e : Event) : (s.schedule d k e).cores = s.cores := rfl
@[simp] theorem State.schedule_setts (s : State) (d k : Nat) (e : Event) : (s.schedule d k e).setts = s.setts := rfl
@[simp] theorem State.schedule_hbm (s : State) (d k : Nat) (e : Event) : (s.schedule d k e).hbm = s.hbm := rfl
@[simp] theorem State.schedule_hostMem (s : State) (d k : Nat) (e : Event) : (s.schedule d k e).hostMem = s.hostMem := rfl
@[simp] theorem State.schedule_sealed (s : State) (d k : Nat) (e : Event) : (s.schedule d k e).sealed = s.sealed := rfl
@[simp] theorem State.schedule_codeOld (s : State) (d k : Nat) (e : Event) : (s.schedule d k e).codeOld = s.codeOld := rfl
@[simp] theorem State.schedule_poison (s : State) (d k : Nat) (e : Event) : (s.schedule d k e).poison = s.poison := rfl
@[simp] theorem State.schedule_reqs (s : State) (d k : Nat) (e : Event) : (s.schedule d k e).reqs = s.reqs := rfl
@[simp] theorem State.schedule_copies (s : State) (d k : Nat) (e : Event) : (s.schedule d k e).copies = s.copies := rfl
@[simp] theorem State.schedule_groups (s : State) (d k : Nat) (e : Event) : (s.schedule d k e).groups = s.groups := rfl
@[simp] theorem State.schedule_walks (s : State) (d k : Nat) (e : Event) : (s.schedule d k e).walks = s.walks := rfl
@[simp] theorem State.schedule_invs (s : State) (d k : Nat) (e : Event) : (s.schedule d k e).invs = s.invs := rfl
@[simp] theorem State.schedule_journals (s : State) (d k : Nat) (e : Event) : (s.schedule d k e).journals = s.journals := rfl
@[simp] theorem State.schedule_nextId (s : State) (d k : Nat) (e : Event) : (s.schedule d k e).nextId = s.nextId := rfl
@[simp] theorem State.schedule_links (s : State) (d k : Nat) (e : Event) : (s.schedule d k e).links = s.links := rfl
@[simp] theorem State.schedule_sessions (s : State) (d k : Nat) (e : Event) : (s.schedule d k e).sessions = s.sessions := rfl
@[simp] theorem State.schedule_hostUp (s : State) (d k : Nat) (e : Event) : (s.schedule d k e).hostUp = s.hostUp := rfl
@[simp] theorem State.schedule_cxlCache (s : State) (d k : Nat) (e : Event) : (s.schedule d k e).cxlCache = s.cxlCache := rfl
@[simp] theorem State.schedule_atomicOps (s : State) (d k : Nat) (e : Event) : (s.schedule d k e).atomicOps = s.atomicOps := rfl
@[simp] theorem State.schedule_portLines (s : State) (d k : Nat) (e : Event) : (s.schedule d k e).portLines = s.portLines := rfl
@[simp] theorem State.schedule_mapgen (s : State) (d k : Nat) (e : Event) : (s.schedule d k e).mapgen = s.mapgen := rfl
@[simp] theorem State.schedule_clusterMap (s : State) (d k : Nat) (e : Event) : (s.schedule d k e).clusterMap = s.clusterMap := rfl
@[simp] theorem State.schedule_hib (s : State) (d k : Nat) (e : Event) : (s.schedule d k e).hib = s.hib := rfl
@[simp] theorem State.schedule_power (s : State) (d k : Nat) (e : Event) : (s.schedule d k e).power = s.power := rfl
@[simp] theorem State.schedule_imageTails (s : State) (d k : Nat) (e : Event) : (s.schedule d k e).imageTails = s.imageTails := rfl
@[simp] theorem State.schedule_imageWaits (s : State) (d k : Nat) (e : Event) : (s.schedule d k e).imageWaits = s.imageWaits := rfl
@[simp] theorem State.schedule_measurements (s : State) (d k : Nat) (e : Event) : (s.schedule d k e).measurements = s.measurements := rfl
@[simp] theorem State.schedule_out (s : State) (d k : Nat) (e : Event) : (s.schedule d k e).out = s.out := rfl

@[simp] theorem State.unschedule_cycle (s : State) (p : Event → Bool) : (s.unschedule p).cycle = s.cycle := rfl
@[simp] theorem State.unschedule_turn (s : State) (p : Event → Bool) : (s.unschedule p).turn = s.turn := rfl
@[simp] theorem State.unschedule_cur (s : State) (p : Event → Bool) : (s.unschedule p).cur = s.cur := rfl
@[simp] theorem State.unschedule_planned (s : State) (p : Event → Bool) : (s.unschedule p).planned = s.planned := rfl
@[simp] theorem State.unschedule_draws (s : State) (p : Event → Bool) : (s.unschedule p).draws = s.draws := rfl
@[simp] theorem State.unschedule_crews (s : State) (p : Event → Bool) : (s.unschedule p).crews = s.crews := rfl
@[simp] theorem State.unschedule_blocks (s : State) (p : Event → Bool) : (s.unschedule p).blocks = s.blocks := rfl
@[simp] theorem State.unschedule_cores (s : State) (p : Event → Bool) : (s.unschedule p).cores = s.cores := rfl
@[simp] theorem State.unschedule_setts (s : State) (p : Event → Bool) : (s.unschedule p).setts = s.setts := rfl
@[simp] theorem State.unschedule_hbm (s : State) (p : Event → Bool) : (s.unschedule p).hbm = s.hbm := rfl
@[simp] theorem State.unschedule_hostMem (s : State) (p : Event → Bool) : (s.unschedule p).hostMem = s.hostMem := rfl
@[simp] theorem State.unschedule_sealed (s : State) (p : Event → Bool) : (s.unschedule p).sealed = s.sealed := rfl
@[simp] theorem State.unschedule_codeOld (s : State) (p : Event → Bool) : (s.unschedule p).codeOld = s.codeOld := rfl
@[simp] theorem State.unschedule_poison (s : State) (p : Event → Bool) : (s.unschedule p).poison = s.poison := rfl
@[simp] theorem State.unschedule_reqs (s : State) (p : Event → Bool) : (s.unschedule p).reqs = s.reqs := rfl
@[simp] theorem State.unschedule_copies (s : State) (p : Event → Bool) : (s.unschedule p).copies = s.copies := rfl
@[simp] theorem State.unschedule_groups (s : State) (p : Event → Bool) : (s.unschedule p).groups = s.groups := rfl
@[simp] theorem State.unschedule_walks (s : State) (p : Event → Bool) : (s.unschedule p).walks = s.walks := rfl
@[simp] theorem State.unschedule_invs (s : State) (p : Event → Bool) : (s.unschedule p).invs = s.invs := rfl
@[simp] theorem State.unschedule_journals (s : State) (p : Event → Bool) : (s.unschedule p).journals = s.journals := rfl
@[simp] theorem State.unschedule_nextId (s : State) (p : Event → Bool) : (s.unschedule p).nextId = s.nextId := rfl
@[simp] theorem State.unschedule_links (s : State) (p : Event → Bool) : (s.unschedule p).links = s.links := rfl
@[simp] theorem State.unschedule_sessions (s : State) (p : Event → Bool) : (s.unschedule p).sessions = s.sessions := rfl
@[simp] theorem State.unschedule_hostUp (s : State) (p : Event → Bool) : (s.unschedule p).hostUp = s.hostUp := rfl
@[simp] theorem State.unschedule_cxlCache (s : State) (p : Event → Bool) : (s.unschedule p).cxlCache = s.cxlCache := rfl
@[simp] theorem State.unschedule_atomicOps (s : State) (p : Event → Bool) : (s.unschedule p).atomicOps = s.atomicOps := rfl
@[simp] theorem State.unschedule_portLines (s : State) (p : Event → Bool) : (s.unschedule p).portLines = s.portLines := rfl
@[simp] theorem State.unschedule_mapgen (s : State) (p : Event → Bool) : (s.unschedule p).mapgen = s.mapgen := rfl
@[simp] theorem State.unschedule_clusterMap (s : State) (p : Event → Bool) : (s.unschedule p).clusterMap = s.clusterMap := rfl
@[simp] theorem State.unschedule_hib (s : State) (p : Event → Bool) : (s.unschedule p).hib = s.hib := rfl
@[simp] theorem State.unschedule_power (s : State) (p : Event → Bool) : (s.unschedule p).power = s.power := rfl
@[simp] theorem State.unschedule_imageTails (s : State) (p : Event → Bool) : (s.unschedule p).imageTails = s.imageTails := rfl
@[simp] theorem State.unschedule_imageWaits (s : State) (p : Event → Bool) : (s.unschedule p).imageWaits = s.imageWaits := rfl
@[simp] theorem State.unschedule_measurements (s : State) (p : Event → Bool) : (s.unschedule p).measurements = s.measurements := rfl
@[simp] theorem State.unschedule_out (s : State) (p : Event → Bool) : (s.unschedule p).out = s.out := rfl

@[simp] theorem State.send_cycle (s : State) (m : OutMsg) : (s.send m).cycle = s.cycle := rfl
@[simp] theorem State.send_turn (s : State) (m : OutMsg) : (s.send m).turn = s.turn := rfl
@[simp] theorem State.send_cur (s : State) (m : OutMsg) : (s.send m).cur = s.cur := rfl
@[simp] theorem State.send_planned (s : State) (m : OutMsg) : (s.send m).planned = s.planned := rfl
@[simp] theorem State.send_agenda (s : State) (m : OutMsg) : (s.send m).agenda = s.agenda := rfl
@[simp] theorem State.send_draws (s : State) (m : OutMsg) : (s.send m).draws = s.draws := rfl
@[simp] theorem State.send_crews (s : State) (m : OutMsg) : (s.send m).crews = s.crews := rfl
@[simp] theorem State.send_blocks (s : State) (m : OutMsg) : (s.send m).blocks = s.blocks := rfl
@[simp] theorem State.send_cores (s : State) (m : OutMsg) : (s.send m).cores = s.cores := rfl
@[simp] theorem State.send_setts (s : State) (m : OutMsg) : (s.send m).setts = s.setts := rfl
@[simp] theorem State.send_hbm (s : State) (m : OutMsg) : (s.send m).hbm = s.hbm := rfl
@[simp] theorem State.send_hostMem (s : State) (m : OutMsg) : (s.send m).hostMem = s.hostMem := rfl
@[simp] theorem State.send_sealed (s : State) (m : OutMsg) : (s.send m).sealed = s.sealed := rfl
@[simp] theorem State.send_codeOld (s : State) (m : OutMsg) : (s.send m).codeOld = s.codeOld := rfl
@[simp] theorem State.send_poison (s : State) (m : OutMsg) : (s.send m).poison = s.poison := rfl
@[simp] theorem State.send_reqs (s : State) (m : OutMsg) : (s.send m).reqs = s.reqs := rfl
@[simp] theorem State.send_copies (s : State) (m : OutMsg) : (s.send m).copies = s.copies := rfl
@[simp] theorem State.send_groups (s : State) (m : OutMsg) : (s.send m).groups = s.groups := rfl
@[simp] theorem State.send_walks (s : State) (m : OutMsg) : (s.send m).walks = s.walks := rfl
@[simp] theorem State.send_invs (s : State) (m : OutMsg) : (s.send m).invs = s.invs := rfl
@[simp] theorem State.send_journals (s : State) (m : OutMsg) : (s.send m).journals = s.journals := rfl
@[simp] theorem State.send_nextId (s : State) (m : OutMsg) : (s.send m).nextId = s.nextId := rfl
@[simp] theorem State.send_links (s : State) (m : OutMsg) : (s.send m).links = s.links := rfl
@[simp] theorem State.send_sessions (s : State) (m : OutMsg) : (s.send m).sessions = s.sessions := rfl
@[simp] theorem State.send_hostUp (s : State) (m : OutMsg) : (s.send m).hostUp = s.hostUp := rfl
@[simp] theorem State.send_cxlCache (s : State) (m : OutMsg) : (s.send m).cxlCache = s.cxlCache := rfl
@[simp] theorem State.send_atomicOps (s : State) (m : OutMsg) : (s.send m).atomicOps = s.atomicOps := rfl
@[simp] theorem State.send_portLines (s : State) (m : OutMsg) : (s.send m).portLines = s.portLines := rfl
@[simp] theorem State.send_mapgen (s : State) (m : OutMsg) : (s.send m).mapgen = s.mapgen := rfl
@[simp] theorem State.send_clusterMap (s : State) (m : OutMsg) : (s.send m).clusterMap = s.clusterMap := rfl
@[simp] theorem State.send_hib (s : State) (m : OutMsg) : (s.send m).hib = s.hib := rfl
@[simp] theorem State.send_power (s : State) (m : OutMsg) : (s.send m).power = s.power := rfl
@[simp] theorem State.send_imageTails (s : State) (m : OutMsg) : (s.send m).imageTails = s.imageTails := rfl
@[simp] theorem State.send_imageWaits (s : State) (m : OutMsg) : (s.send m).imageWaits = s.imageWaits := rfl
@[simp] theorem State.send_measurements (s : State) (m : OutMsg) : (s.send m).measurements = s.measurements := rfl

@[simp] theorem State.hbmWrite_cycle (s : State) (q a n v : Nat) : (s.hbmWrite q a n v).cycle = s.cycle := rfl
@[simp] theorem State.hbmWrite_turn (s : State) (q a n v : Nat) : (s.hbmWrite q a n v).turn = s.turn := rfl
@[simp] theorem State.hbmWrite_cur (s : State) (q a n v : Nat) : (s.hbmWrite q a n v).cur = s.cur := rfl
@[simp] theorem State.hbmWrite_planned (s : State) (q a n v : Nat) : (s.hbmWrite q a n v).planned = s.planned := rfl
@[simp] theorem State.hbmWrite_agenda (s : State) (q a n v : Nat) : (s.hbmWrite q a n v).agenda = s.agenda := rfl
@[simp] theorem State.hbmWrite_draws (s : State) (q a n v : Nat) : (s.hbmWrite q a n v).draws = s.draws := rfl
@[simp] theorem State.hbmWrite_crews (s : State) (q a n v : Nat) : (s.hbmWrite q a n v).crews = s.crews := rfl
@[simp] theorem State.hbmWrite_blocks (s : State) (q a n v : Nat) : (s.hbmWrite q a n v).blocks = s.blocks := rfl
@[simp] theorem State.hbmWrite_cores (s : State) (q a n v : Nat) : (s.hbmWrite q a n v).cores = s.cores := rfl
@[simp] theorem State.hbmWrite_setts (s : State) (q a n v : Nat) : (s.hbmWrite q a n v).setts = s.setts := rfl
@[simp] theorem State.hbmWrite_hostMem (s : State) (q a n v : Nat) : (s.hbmWrite q a n v).hostMem = s.hostMem := rfl
@[simp] theorem State.hbmWrite_sealed (s : State) (q a n v : Nat) : (s.hbmWrite q a n v).sealed = s.sealed := rfl
@[simp] theorem State.hbmWrite_codeOld (s : State) (q a n v : Nat) : (s.hbmWrite q a n v).codeOld = s.codeOld := rfl
@[simp] theorem State.hbmWrite_poison (s : State) (q a n v : Nat) : (s.hbmWrite q a n v).poison = s.poison := rfl
@[simp] theorem State.hbmWrite_reqs (s : State) (q a n v : Nat) : (s.hbmWrite q a n v).reqs = s.reqs := rfl
@[simp] theorem State.hbmWrite_copies (s : State) (q a n v : Nat) : (s.hbmWrite q a n v).copies = s.copies := rfl
@[simp] theorem State.hbmWrite_groups (s : State) (q a n v : Nat) : (s.hbmWrite q a n v).groups = s.groups := rfl
@[simp] theorem State.hbmWrite_walks (s : State) (q a n v : Nat) : (s.hbmWrite q a n v).walks = s.walks := rfl
@[simp] theorem State.hbmWrite_invs (s : State) (q a n v : Nat) : (s.hbmWrite q a n v).invs = s.invs := rfl
@[simp] theorem State.hbmWrite_journals (s : State) (q a n v : Nat) : (s.hbmWrite q a n v).journals = s.journals := rfl
@[simp] theorem State.hbmWrite_nextId (s : State) (q a n v : Nat) : (s.hbmWrite q a n v).nextId = s.nextId := rfl
@[simp] theorem State.hbmWrite_links (s : State) (q a n v : Nat) : (s.hbmWrite q a n v).links = s.links := rfl
@[simp] theorem State.hbmWrite_sessions (s : State) (q a n v : Nat) : (s.hbmWrite q a n v).sessions = s.sessions := rfl
@[simp] theorem State.hbmWrite_hostUp (s : State) (q a n v : Nat) : (s.hbmWrite q a n v).hostUp = s.hostUp := rfl
@[simp] theorem State.hbmWrite_cxlCache (s : State) (q a n v : Nat) : (s.hbmWrite q a n v).cxlCache = s.cxlCache := rfl
@[simp] theorem State.hbmWrite_atomicOps (s : State) (q a n v : Nat) : (s.hbmWrite q a n v).atomicOps = s.atomicOps := rfl
@[simp] theorem State.hbmWrite_portLines (s : State) (q a n v : Nat) : (s.hbmWrite q a n v).portLines = s.portLines := rfl
@[simp] theorem State.hbmWrite_mapgen (s : State) (q a n v : Nat) : (s.hbmWrite q a n v).mapgen = s.mapgen := rfl
@[simp] theorem State.hbmWrite_clusterMap (s : State) (q a n v : Nat) : (s.hbmWrite q a n v).clusterMap = s.clusterMap := rfl
@[simp] theorem State.hbmWrite_hib (s : State) (q a n v : Nat) : (s.hbmWrite q a n v).hib = s.hib := rfl
@[simp] theorem State.hbmWrite_power (s : State) (q a n v : Nat) : (s.hbmWrite q a n v).power = s.power := rfl
@[simp] theorem State.hbmWrite_imageTails (s : State) (q a n v : Nat) : (s.hbmWrite q a n v).imageTails = s.imageTails := rfl
@[simp] theorem State.hbmWrite_imageWaits (s : State) (q a n v : Nat) : (s.hbmWrite q a n v).imageWaits = s.imageWaits := rfl
@[simp] theorem State.hbmWrite_measurements (s : State) (q a n v : Nat) : (s.hbmWrite q a n v).measurements = s.measurements := rfl
@[simp] theorem State.hbmWrite_out (s : State) (q a n v : Nat) : (s.hbmWrite q a n v).out = s.out := rfl

@[simp] theorem State.hostWrite_cycle (s : State) (a n v : Nat) : (s.hostWrite a n v).cycle = s.cycle := rfl
@[simp] theorem State.hostWrite_turn (s : State) (a n v : Nat) : (s.hostWrite a n v).turn = s.turn := rfl
@[simp] theorem State.hostWrite_cur (s : State) (a n v : Nat) : (s.hostWrite a n v).cur = s.cur := rfl
@[simp] theorem State.hostWrite_planned (s : State) (a n v : Nat) : (s.hostWrite a n v).planned = s.planned := rfl
@[simp] theorem State.hostWrite_agenda (s : State) (a n v : Nat) : (s.hostWrite a n v).agenda = s.agenda := rfl
@[simp] theorem State.hostWrite_draws (s : State) (a n v : Nat) : (s.hostWrite a n v).draws = s.draws := rfl
@[simp] theorem State.hostWrite_crews (s : State) (a n v : Nat) : (s.hostWrite a n v).crews = s.crews := rfl
@[simp] theorem State.hostWrite_blocks (s : State) (a n v : Nat) : (s.hostWrite a n v).blocks = s.blocks := rfl
@[simp] theorem State.hostWrite_cores (s : State) (a n v : Nat) : (s.hostWrite a n v).cores = s.cores := rfl
@[simp] theorem State.hostWrite_setts (s : State) (a n v : Nat) : (s.hostWrite a n v).setts = s.setts := rfl
@[simp] theorem State.hostWrite_hbm (s : State) (a n v : Nat) : (s.hostWrite a n v).hbm = s.hbm := rfl
@[simp] theorem State.hostWrite_sealed (s : State) (a n v : Nat) : (s.hostWrite a n v).sealed = s.sealed := rfl
@[simp] theorem State.hostWrite_codeOld (s : State) (a n v : Nat) : (s.hostWrite a n v).codeOld = s.codeOld := rfl
@[simp] theorem State.hostWrite_poison (s : State) (a n v : Nat) : (s.hostWrite a n v).poison = s.poison := rfl
@[simp] theorem State.hostWrite_reqs (s : State) (a n v : Nat) : (s.hostWrite a n v).reqs = s.reqs := rfl
@[simp] theorem State.hostWrite_copies (s : State) (a n v : Nat) : (s.hostWrite a n v).copies = s.copies := rfl
@[simp] theorem State.hostWrite_groups (s : State) (a n v : Nat) : (s.hostWrite a n v).groups = s.groups := rfl
@[simp] theorem State.hostWrite_walks (s : State) (a n v : Nat) : (s.hostWrite a n v).walks = s.walks := rfl
@[simp] theorem State.hostWrite_invs (s : State) (a n v : Nat) : (s.hostWrite a n v).invs = s.invs := rfl
@[simp] theorem State.hostWrite_journals (s : State) (a n v : Nat) : (s.hostWrite a n v).journals = s.journals := rfl
@[simp] theorem State.hostWrite_nextId (s : State) (a n v : Nat) : (s.hostWrite a n v).nextId = s.nextId := rfl
@[simp] theorem State.hostWrite_links (s : State) (a n v : Nat) : (s.hostWrite a n v).links = s.links := rfl
@[simp] theorem State.hostWrite_sessions (s : State) (a n v : Nat) : (s.hostWrite a n v).sessions = s.sessions := rfl
@[simp] theorem State.hostWrite_hostUp (s : State) (a n v : Nat) : (s.hostWrite a n v).hostUp = s.hostUp := rfl
@[simp] theorem State.hostWrite_cxlCache (s : State) (a n v : Nat) : (s.hostWrite a n v).cxlCache = s.cxlCache := rfl
@[simp] theorem State.hostWrite_atomicOps (s : State) (a n v : Nat) : (s.hostWrite a n v).atomicOps = s.atomicOps := rfl
@[simp] theorem State.hostWrite_portLines (s : State) (a n v : Nat) : (s.hostWrite a n v).portLines = s.portLines := rfl
@[simp] theorem State.hostWrite_mapgen (s : State) (a n v : Nat) : (s.hostWrite a n v).mapgen = s.mapgen := rfl
@[simp] theorem State.hostWrite_clusterMap (s : State) (a n v : Nat) : (s.hostWrite a n v).clusterMap = s.clusterMap := rfl
@[simp] theorem State.hostWrite_hib (s : State) (a n v : Nat) : (s.hostWrite a n v).hib = s.hib := rfl
@[simp] theorem State.hostWrite_power (s : State) (a n v : Nat) : (s.hostWrite a n v).power = s.power := rfl
@[simp] theorem State.hostWrite_imageTails (s : State) (a n v : Nat) : (s.hostWrite a n v).imageTails = s.imageTails := rfl
@[simp] theorem State.hostWrite_imageWaits (s : State) (a n v : Nat) : (s.hostWrite a n v).imageWaits = s.imageWaits := rfl
@[simp] theorem State.hostWrite_measurements (s : State) (a n v : Nat) : (s.hostWrite a n v).measurements = s.measurements := rfl
@[simp] theorem State.hostWrite_out (s : State) (a n v : Nat) : (s.hostWrite a n v).out = s.out := rfl

@[simp] theorem State.raise_cycle (s : State) (q v : Nat) : (s.raise q v).cycle = s.cycle := rfl
@[simp] theorem State.raise_turn (s : State) (q v : Nat) : (s.raise q v).turn = s.turn := rfl
@[simp] theorem State.raise_cur (s : State) (q v : Nat) : (s.raise q v).cur = s.cur := rfl
@[simp] theorem State.raise_planned (s : State) (q v : Nat) : (s.raise q v).planned = s.planned := rfl
@[simp] theorem State.raise_agenda (s : State) (q v : Nat) : (s.raise q v).agenda = s.agenda := rfl
@[simp] theorem State.raise_draws (s : State) (q v : Nat) : (s.raise q v).draws = s.draws := rfl
@[simp] theorem State.raise_crews (s : State) (q v : Nat) : (s.raise q v).crews = s.crews := rfl
@[simp] theorem State.raise_blocks (s : State) (q v : Nat) : (s.raise q v).blocks = s.blocks := rfl
@[simp] theorem State.raise_cores (s : State) (q v : Nat) : (s.raise q v).cores = s.cores := rfl
@[simp] theorem State.raise_hbm (s : State) (q v : Nat) : (s.raise q v).hbm = s.hbm := rfl
@[simp] theorem State.raise_hostMem (s : State) (q v : Nat) : (s.raise q v).hostMem = s.hostMem := rfl
@[simp] theorem State.raise_sealed (s : State) (q v : Nat) : (s.raise q v).sealed = s.sealed := rfl
@[simp] theorem State.raise_codeOld (s : State) (q v : Nat) : (s.raise q v).codeOld = s.codeOld := rfl
@[simp] theorem State.raise_poison (s : State) (q v : Nat) : (s.raise q v).poison = s.poison := rfl
@[simp] theorem State.raise_reqs (s : State) (q v : Nat) : (s.raise q v).reqs = s.reqs := rfl
@[simp] theorem State.raise_copies (s : State) (q v : Nat) : (s.raise q v).copies = s.copies := rfl
@[simp] theorem State.raise_groups (s : State) (q v : Nat) : (s.raise q v).groups = s.groups := rfl
@[simp] theorem State.raise_walks (s : State) (q v : Nat) : (s.raise q v).walks = s.walks := rfl
@[simp] theorem State.raise_invs (s : State) (q v : Nat) : (s.raise q v).invs = s.invs := rfl
@[simp] theorem State.raise_journals (s : State) (q v : Nat) : (s.raise q v).journals = s.journals := rfl
@[simp] theorem State.raise_nextId (s : State) (q v : Nat) : (s.raise q v).nextId = s.nextId := rfl
@[simp] theorem State.raise_links (s : State) (q v : Nat) : (s.raise q v).links = s.links := rfl
@[simp] theorem State.raise_sessions (s : State) (q v : Nat) : (s.raise q v).sessions = s.sessions := rfl
@[simp] theorem State.raise_hostUp (s : State) (q v : Nat) : (s.raise q v).hostUp = s.hostUp := rfl
@[simp] theorem State.raise_cxlCache (s : State) (q v : Nat) : (s.raise q v).cxlCache = s.cxlCache := rfl
@[simp] theorem State.raise_atomicOps (s : State) (q v : Nat) : (s.raise q v).atomicOps = s.atomicOps := rfl
@[simp] theorem State.raise_portLines (s : State) (q v : Nat) : (s.raise q v).portLines = s.portLines := rfl
@[simp] theorem State.raise_mapgen (s : State) (q v : Nat) : (s.raise q v).mapgen = s.mapgen := rfl
@[simp] theorem State.raise_clusterMap (s : State) (q v : Nat) : (s.raise q v).clusterMap = s.clusterMap := rfl
@[simp] theorem State.raise_hib (s : State) (q v : Nat) : (s.raise q v).hib = s.hib := rfl
@[simp] theorem State.raise_power (s : State) (q v : Nat) : (s.raise q v).power = s.power := rfl
@[simp] theorem State.raise_imageTails (s : State) (q v : Nat) : (s.raise q v).imageTails = s.imageTails := rfl
@[simp] theorem State.raise_imageWaits (s : State) (q v : Nat) : (s.raise q v).imageWaits = s.imageWaits := rfl
@[simp] theorem State.raise_measurements (s : State) (q v : Nat) : (s.raise q v).measurements = s.measurements := rfl
@[simp] theorem State.raise_out (s : State) (q v : Nat) : (s.raise q v).out = s.out := rfl

@[simp] theorem State.take_cycle (s : State) (u : Issue) (rest : List Issue) : (s.take u rest).cycle = s.cycle := rfl
@[simp] theorem State.take_planned (s : State) (u : Issue) (rest : List Issue) : (s.take u rest).planned = s.planned := rfl
@[simp] theorem State.take_agenda (s : State) (u : Issue) (rest : List Issue) : (s.take u rest).agenda = s.agenda := rfl
@[simp] theorem State.take_draws (s : State) (u : Issue) (rest : List Issue) : (s.take u rest).draws = s.draws := rfl
@[simp] theorem State.take_crews (s : State) (u : Issue) (rest : List Issue) : (s.take u rest).crews = s.crews := rfl
@[simp] theorem State.take_blocks (s : State) (u : Issue) (rest : List Issue) : (s.take u rest).blocks = s.blocks := rfl
@[simp] theorem State.take_cores (s : State) (u : Issue) (rest : List Issue) : (s.take u rest).cores = s.cores := rfl
@[simp] theorem State.take_setts (s : State) (u : Issue) (rest : List Issue) : (s.take u rest).setts = s.setts := rfl
@[simp] theorem State.take_hbm (s : State) (u : Issue) (rest : List Issue) : (s.take u rest).hbm = s.hbm := rfl
@[simp] theorem State.take_hostMem (s : State) (u : Issue) (rest : List Issue) : (s.take u rest).hostMem = s.hostMem := rfl
@[simp] theorem State.take_sealed (s : State) (u : Issue) (rest : List Issue) : (s.take u rest).sealed = s.sealed := rfl
@[simp] theorem State.take_codeOld (s : State) (u : Issue) (rest : List Issue) : (s.take u rest).codeOld = s.codeOld := rfl
@[simp] theorem State.take_poison (s : State) (u : Issue) (rest : List Issue) : (s.take u rest).poison = s.poison := rfl
@[simp] theorem State.take_reqs (s : State) (u : Issue) (rest : List Issue) : (s.take u rest).reqs = s.reqs := rfl
@[simp] theorem State.take_copies (s : State) (u : Issue) (rest : List Issue) : (s.take u rest).copies = s.copies := rfl
@[simp] theorem State.take_groups (s : State) (u : Issue) (rest : List Issue) : (s.take u rest).groups = s.groups := rfl
@[simp] theorem State.take_walks (s : State) (u : Issue) (rest : List Issue) : (s.take u rest).walks = s.walks := rfl
@[simp] theorem State.take_invs (s : State) (u : Issue) (rest : List Issue) : (s.take u rest).invs = s.invs := rfl
@[simp] theorem State.take_journals (s : State) (u : Issue) (rest : List Issue) : (s.take u rest).journals = s.journals := rfl
@[simp] theorem State.take_nextId (s : State) (u : Issue) (rest : List Issue) : (s.take u rest).nextId = s.nextId := rfl
@[simp] theorem State.take_links (s : State) (u : Issue) (rest : List Issue) : (s.take u rest).links = s.links := rfl
@[simp] theorem State.take_sessions (s : State) (u : Issue) (rest : List Issue) : (s.take u rest).sessions = s.sessions := rfl
@[simp] theorem State.take_hostUp (s : State) (u : Issue) (rest : List Issue) : (s.take u rest).hostUp = s.hostUp := rfl
@[simp] theorem State.take_cxlCache (s : State) (u : Issue) (rest : List Issue) : (s.take u rest).cxlCache = s.cxlCache := rfl
@[simp] theorem State.take_atomicOps (s : State) (u : Issue) (rest : List Issue) : (s.take u rest).atomicOps = s.atomicOps := rfl
@[simp] theorem State.take_portLines (s : State) (u : Issue) (rest : List Issue) : (s.take u rest).portLines = s.portLines := rfl
@[simp] theorem State.take_mapgen (s : State) (u : Issue) (rest : List Issue) : (s.take u rest).mapgen = s.mapgen := rfl
@[simp] theorem State.take_clusterMap (s : State) (u : Issue) (rest : List Issue) : (s.take u rest).clusterMap = s.clusterMap := rfl
@[simp] theorem State.take_hib (s : State) (u : Issue) (rest : List Issue) : (s.take u rest).hib = s.hib := rfl
@[simp] theorem State.take_power (s : State) (u : Issue) (rest : List Issue) : (s.take u rest).power = s.power := rfl
@[simp] theorem State.take_imageTails (s : State) (u : Issue) (rest : List Issue) : (s.take u rest).imageTails = s.imageTails := rfl
@[simp] theorem State.take_imageWaits (s : State) (u : Issue) (rest : List Issue) : (s.take u rest).imageWaits = s.imageWaits := rfl
@[simp] theorem State.take_measurements (s : State) (u : Issue) (rest : List Issue) : (s.take u rest).measurements = s.measurements := rfl
@[simp] theorem State.take_out (s : State) (u : Issue) (rest : List Issue) : (s.take u rest).out = s.out := rfl

theorem State.setCrew_crew (s : State) (k j : Nat) (c : Crew) : (s.setCrew k c).crew j = if j = k then c else s.crew j :=
  Tab.get_set _ _ _ _ _
@[simp] theorem State.setCrew_crew_same (s : State) (k : Nat) (c : Crew) : (s.setCrew k c).crew k = c := by simp [State.setCrew_crew]
theorem State.setCrew_crew_other (s : State) (k j : Nat) (c : Crew) (h : j ≠ k) : (s.setCrew k c).crew j = s.crew j := by
  simp [State.setCrew_crew, h]
@[simp] theorem State.setCrew_block' (s : State) (k j : Nat) (c : Crew) : (s.setCrew k c).block j = s.block j := rfl
@[simp] theorem State.setCrew_core' (s : State) (k j : Nat) (c : Crew) : (s.setCrew k c).core j = s.core j := rfl
@[simp] theorem State.setCrew_sett' (s : State) (k j : Nat) (c : Crew) : (s.setCrew k c).sett j = s.sett j := rfl
@[simp] theorem State.setCrew_req' (s : State) (k j : Nat) (c : Crew) : (s.setCrew k c).req j = s.req j := rfl
@[simp] theorem State.setCrew_copy' (s : State) (k j : Nat) (c : Crew) : (s.setCrew k c).copy j = s.copy j := rfl
@[simp] theorem State.setCrew_link' (s : State) (k j : Nat) (c : Crew) : (s.setCrew k c).link j = s.link j := rfl
theorem State.setBlock_block (s : State) (k j : Nat) (c : Block) : (s.setBlock k c).block j = if j = k then c else s.block j :=
  Tab.get_set _ _ _ _ _
@[simp] theorem State.setBlock_block_same (s : State) (k : Nat) (c : Block) : (s.setBlock k c).block k = c := by simp [State.setBlock_block]
theorem State.setBlock_block_other (s : State) (k j : Nat) (c : Block) (h : j ≠ k) : (s.setBlock k c).block j = s.block j := by
  simp [State.setBlock_block, h]
@[simp] theorem State.setBlock_crew' (s : State) (k j : Nat) (c : Block) : (s.setBlock k c).crew j = s.crew j := rfl
@[simp] theorem State.setBlock_core' (s : State) (k j : Nat) (c : Block) : (s.setBlock k c).core j = s.core j := rfl
@[simp] theorem State.setBlock_sett' (s : State) (k j : Nat) (c : Block) : (s.setBlock k c).sett j = s.sett j := rfl
@[simp] theorem State.setBlock_req' (s : State) (k j : Nat) (c : Block) : (s.setBlock k c).req j = s.req j := rfl
@[simp] theorem State.setBlock_copy' (s : State) (k j : Nat) (c : Block) : (s.setBlock k c).copy j = s.copy j := rfl
@[simp] theorem State.setBlock_link' (s : State) (k j : Nat) (c : Block) : (s.setBlock k c).link j = s.link j := rfl
theorem State.setCore_core (s : State) (k j : Nat) (c : Core) : (s.setCore k c).core j = if j = k then c else s.core j :=
  Tab.get_set _ _ _ _ _
@[simp] theorem State.setCore_core_same (s : State) (k : Nat) (c : Core) : (s.setCore k c).core k = c := by simp [State.setCore_core]
theorem State.setCore_core_other (s : State) (k j : Nat) (c : Core) (h : j ≠ k) : (s.setCore k c).core j = s.core j := by
  simp [State.setCore_core, h]
@[simp] theorem State.setCore_crew' (s : State) (k j : Nat) (c : Core) : (s.setCore k c).crew j = s.crew j := rfl
@[simp] theorem State.setCore_block' (s : State) (k j : Nat) (c : Core) : (s.setCore k c).block j = s.block j := rfl
@[simp] theorem State.setCore_sett' (s : State) (k j : Nat) (c : Core) : (s.setCore k c).sett j = s.sett j := rfl
@[simp] theorem State.setCore_req' (s : State) (k j : Nat) (c : Core) : (s.setCore k c).req j = s.req j := rfl
@[simp] theorem State.setCore_copy' (s : State) (k j : Nat) (c : Core) : (s.setCore k c).copy j = s.copy j := rfl
@[simp] theorem State.setCore_link' (s : State) (k j : Nat) (c : Core) : (s.setCore k c).link j = s.link j := rfl
theorem State.setSett_sett (s : State) (k j : Nat) (c : Sett) : (s.setSett k c).sett j = if j = k then c else s.sett j :=
  Tab.get_set _ _ _ _ _
@[simp] theorem State.setSett_sett_same (s : State) (k : Nat) (c : Sett) : (s.setSett k c).sett k = c := by simp [State.setSett_sett]
theorem State.setSett_sett_other (s : State) (k j : Nat) (c : Sett) (h : j ≠ k) : (s.setSett k c).sett j = s.sett j := by
  simp [State.setSett_sett, h]
@[simp] theorem State.setSett_crew' (s : State) (k j : Nat) (c : Sett) : (s.setSett k c).crew j = s.crew j := rfl
@[simp] theorem State.setSett_block' (s : State) (k j : Nat) (c : Sett) : (s.setSett k c).block j = s.block j := rfl
@[simp] theorem State.setSett_core' (s : State) (k j : Nat) (c : Sett) : (s.setSett k c).core j = s.core j := rfl
@[simp] theorem State.setSett_req' (s : State) (k j : Nat) (c : Sett) : (s.setSett k c).req j = s.req j := rfl
@[simp] theorem State.setSett_copy' (s : State) (k j : Nat) (c : Sett) : (s.setSett k c).copy j = s.copy j := rfl
@[simp] theorem State.setSett_link' (s : State) (k j : Nat) (c : Sett) : (s.setSett k c).link j = s.link j := rfl
theorem State.setReq_req (s : State) (k j : Nat) (c : Option Req) : (s.setReq k c).req j = if j = k then c else s.req j :=
  Tab.get_set _ _ _ _ _
@[simp] theorem State.setReq_req_same (s : State) (k : Nat) (c : Option Req) : (s.setReq k c).req k = c := by simp [State.setReq_req]
theorem State.setReq_req_other (s : State) (k j : Nat) (c : Option Req) (h : j ≠ k) : (s.setReq k c).req j = s.req j := by
  simp [State.setReq_req, h]
@[simp] theorem State.setReq_crew' (s : State) (k j : Nat) (c : Option Req) : (s.setReq k c).crew j = s.crew j := rfl
@[simp] theorem State.setReq_block' (s : State) (k j : Nat) (c : Option Req) : (s.setReq k c).block j = s.block j := rfl
@[simp] theorem State.setReq_core' (s : State) (k j : Nat) (c : Option Req) : (s.setReq k c).core j = s.core j := rfl
@[simp] theorem State.setReq_sett' (s : State) (k j : Nat) (c : Option Req) : (s.setReq k c).sett j = s.sett j := rfl
@[simp] theorem State.setReq_copy' (s : State) (k j : Nat) (c : Option Req) : (s.setReq k c).copy j = s.copy j := rfl
@[simp] theorem State.setReq_link' (s : State) (k j : Nat) (c : Option Req) : (s.setReq k c).link j = s.link j := rfl
theorem State.setCopy_copy (s : State) (k j : Nat) (c : Option Copy) : (s.setCopy k c).copy j = if j = k then c else s.copy j :=
  Tab.get_set _ _ _ _ _
@[simp] theorem State.setCopy_copy_same (s : State) (k : Nat) (c : Option Copy) : (s.setCopy k c).copy k = c := by simp [State.setCopy_copy]
theorem State.setCopy_copy_other (s : State) (k j : Nat) (c : Option Copy) (h : j ≠ k) : (s.setCopy k c).copy j = s.copy j := by
  simp [State.setCopy_copy, h]
@[simp] theorem State.setCopy_crew' (s : State) (k j : Nat) (c : Option Copy) : (s.setCopy k c).crew j = s.crew j := rfl
@[simp] theorem State.setCopy_block' (s : State) (k j : Nat) (c : Option Copy) : (s.setCopy k c).block j = s.block j := rfl
@[simp] theorem State.setCopy_core' (s : State) (k j : Nat) (c : Option Copy) : (s.setCopy k c).core j = s.core j := rfl
@[simp] theorem State.setCopy_sett' (s : State) (k j : Nat) (c : Option Copy) : (s.setCopy k c).sett j = s.sett j := rfl
@[simp] theorem State.setCopy_req' (s : State) (k j : Nat) (c : Option Copy) : (s.setCopy k c).req j = s.req j := rfl
@[simp] theorem State.setCopy_link' (s : State) (k j : Nat) (c : Option Copy) : (s.setCopy k c).link j = s.link j := rfl
theorem State.setLink_link (s : State) (k j : Nat) (c : Link) : (s.setLink k c).link j = if j = k then c else s.link j :=
  Tab.get_set _ _ _ _ _
@[simp] theorem State.setLink_link_same (s : State) (k : Nat) (c : Link) : (s.setLink k c).link k = c := by simp [State.setLink_link]
theorem State.setLink_link_other (s : State) (k j : Nat) (c : Link) (h : j ≠ k) : (s.setLink k c).link j = s.link j := by
  simp [State.setLink_link, h]
@[simp] theorem State.setLink_crew' (s : State) (k j : Nat) (c : Link) : (s.setLink k c).crew j = s.crew j := rfl
@[simp] theorem State.setLink_block' (s : State) (k j : Nat) (c : Link) : (s.setLink k c).block j = s.block j := rfl
@[simp] theorem State.setLink_core' (s : State) (k j : Nat) (c : Link) : (s.setLink k c).core j = s.core j := rfl
@[simp] theorem State.setLink_sett' (s : State) (k j : Nat) (c : Link) : (s.setLink k c).sett j = s.sett j := rfl
@[simp] theorem State.setLink_req' (s : State) (k j : Nat) (c : Link) : (s.setLink k c).req j = s.req j := rfl
@[simp] theorem State.setLink_copy' (s : State) (k j : Nat) (c : Link) : (s.setLink k c).copy j = s.copy j := rfl
theorem State.modCrew_crew (s : State) (k j : Nat) (f : Crew → Crew) : (s.modCrew k f).crew j = if j = k then f (s.crew k) else s.crew j :=
  State.setCrew_crew _ _ _ _
@[simp] theorem State.modCrew_crew_same (s : State) (k : Nat) (f : Crew → Crew) : (s.modCrew k f).crew k = f (s.crew k) := by simp [State.modCrew_crew]
@[simp] theorem State.modCrew_block' (s : State) (k j : Nat) (f : Crew → Crew) : (s.modCrew k f).block j = s.block j := rfl
@[simp] theorem State.modCrew_core' (s : State) (k j : Nat) (f : Crew → Crew) : (s.modCrew k f).core j = s.core j := rfl
@[simp] theorem State.modCrew_sett' (s : State) (k j : Nat) (f : Crew → Crew) : (s.modCrew k f).sett j = s.sett j := rfl
@[simp] theorem State.modCrew_req' (s : State) (k j : Nat) (f : Crew → Crew) : (s.modCrew k f).req j = s.req j := rfl
@[simp] theorem State.modCrew_copy' (s : State) (k j : Nat) (f : Crew → Crew) : (s.modCrew k f).copy j = s.copy j := rfl
@[simp] theorem State.modCrew_link' (s : State) (k j : Nat) (f : Crew → Crew) : (s.modCrew k f).link j = s.link j := rfl
theorem State.modBlock_block (s : State) (k j : Nat) (f : Block → Block) : (s.modBlock k f).block j = if j = k then f (s.block k) else s.block j :=
  State.setBlock_block _ _ _ _
@[simp] theorem State.modBlock_block_same (s : State) (k : Nat) (f : Block → Block) : (s.modBlock k f).block k = f (s.block k) := by simp [State.modBlock_block]
@[simp] theorem State.modBlock_crew' (s : State) (k j : Nat) (f : Block → Block) : (s.modBlock k f).crew j = s.crew j := rfl
@[simp] theorem State.modBlock_core' (s : State) (k j : Nat) (f : Block → Block) : (s.modBlock k f).core j = s.core j := rfl
@[simp] theorem State.modBlock_sett' (s : State) (k j : Nat) (f : Block → Block) : (s.modBlock k f).sett j = s.sett j := rfl
@[simp] theorem State.modBlock_req' (s : State) (k j : Nat) (f : Block → Block) : (s.modBlock k f).req j = s.req j := rfl
@[simp] theorem State.modBlock_copy' (s : State) (k j : Nat) (f : Block → Block) : (s.modBlock k f).copy j = s.copy j := rfl
@[simp] theorem State.modBlock_link' (s : State) (k j : Nat) (f : Block → Block) : (s.modBlock k f).link j = s.link j := rfl
theorem State.modCore_core (s : State) (k j : Nat) (f : Core → Core) : (s.modCore k f).core j = if j = k then f (s.core k) else s.core j :=
  State.setCore_core _ _ _ _
@[simp] theorem State.modCore_core_same (s : State) (k : Nat) (f : Core → Core) : (s.modCore k f).core k = f (s.core k) := by simp [State.modCore_core]
@[simp] theorem State.modCore_crew' (s : State) (k j : Nat) (f : Core → Core) : (s.modCore k f).crew j = s.crew j := rfl
@[simp] theorem State.modCore_block' (s : State) (k j : Nat) (f : Core → Core) : (s.modCore k f).block j = s.block j := rfl
@[simp] theorem State.modCore_sett' (s : State) (k j : Nat) (f : Core → Core) : (s.modCore k f).sett j = s.sett j := rfl
@[simp] theorem State.modCore_req' (s : State) (k j : Nat) (f : Core → Core) : (s.modCore k f).req j = s.req j := rfl
@[simp] theorem State.modCore_copy' (s : State) (k j : Nat) (f : Core → Core) : (s.modCore k f).copy j = s.copy j := rfl
@[simp] theorem State.modCore_link' (s : State) (k j : Nat) (f : Core → Core) : (s.modCore k f).link j = s.link j := rfl
theorem State.modSett_sett (s : State) (k j : Nat) (f : Sett → Sett) : (s.modSett k f).sett j = if j = k then f (s.sett k) else s.sett j :=
  State.setSett_sett _ _ _ _
@[simp] theorem State.modSett_sett_same (s : State) (k : Nat) (f : Sett → Sett) : (s.modSett k f).sett k = f (s.sett k) := by simp [State.modSett_sett]
@[simp] theorem State.modSett_crew' (s : State) (k j : Nat) (f : Sett → Sett) : (s.modSett k f).crew j = s.crew j := rfl
@[simp] theorem State.modSett_block' (s : State) (k j : Nat) (f : Sett → Sett) : (s.modSett k f).block j = s.block j := rfl
@[simp] theorem State.modSett_core' (s : State) (k j : Nat) (f : Sett → Sett) : (s.modSett k f).core j = s.core j := rfl
@[simp] theorem State.modSett_req' (s : State) (k j : Nat) (f : Sett → Sett) : (s.modSett k f).req j = s.req j := rfl
@[simp] theorem State.modSett_copy' (s : State) (k j : Nat) (f : Sett → Sett) : (s.modSett k f).copy j = s.copy j := rfl
@[simp] theorem State.modSett_link' (s : State) (k j : Nat) (f : Sett → Sett) : (s.modSett k f).link j = s.link j := rfl

theorem State.record_modRecord (s : State) (q r q' r' : Nat) (f : LaunchRec → LaunchRec) :
    (s.modRecord q r f).record q' r' = if q' = q ∧ r' = r then f (s.record q r) else s.record q' r' := by
  unfold State.record State.modRecord
  rw [State.modSett_sett]
  by_cases h : q' = q
  · subst h; simp [Tab.modify, Tab.get_set]
  · simp [h]

@[simp] theorem State.fresh_fst (s : State) : s.fresh.1 = s.nextId := rfl
@[simp] theorem State.fresh_snd (s : State) : s.fresh.2 = { s with nextId := s.nextId + 1 } := rfl
@[simp] theorem State.draw_fst (s : State) : s.draw.1 = s.draws := rfl
@[simp] theorem State.draw_snd (s : State) : s.draw.2 = { s with draws := s.draws + 1 } := rfl
@[simp] theorem State.schedule_now (s : State) (d k : Nat) (e : Event) :
    (s.schedule d k e).agenda = insertTimed ⟨s.cycle + d, 1024 * k, e⟩ s.agenda := rfl

end Sys2Proof.Machine
end

