-- ==== Sys2Proof/Laws/Alu.lean ====
section
/-! SUPPORT. What the shared procedure of R102 does: one lemma for each of its parts, up to `Crew.compute` and
`Crew.computePair`. -/

namespace Sys2Proof.Machine

/-! ## Slots -/

theorem Crew.slot_setSlot (c : Crew) (r l r' l' : Nat) (v : Slot) (hl : l < 32) (hl' : l' < 32) :
    (c.setSlot r l v).slot r' l' = if r' = r ∧ l' = l then v else c.slot r' l' := by
  simp only [Crew.slot, Crew.setSlot, Tab.get_set]
  congr 1
  exact propext ⟨fun h => by omega, fun h => by omega⟩

theorem Crew.slot_writeReg (c : Crew) (r l r' l' : Nat) (v : Word) (n : Nat) (hl : l < 32) (hl' : l' < 32) :
    (c.writeReg r l v n).slot r' l' = if r' = r ∧ l' = l then { val := v, cnt := BitVec.ofNat 2 n, rel := false } else c.slot r' l' :=
  Crew.slot_setSlot _ _ _ _ _ _ hl hl'

theorem lanesOf_lt {m : LaneMask} {l : Nat} (h : l ∈ lanesOf m) : l < 32 := by
  simp only [lanesOf, List.mem_filter, List.mem_range] at h; exact h.1

theorem Crew.active_sub {c : Crew} {i : Instr} {m : LaneMask} {l : Nat} (h : l ∈ c.active i m) : l ∈ lanesOf m := by
  simp only [Crew.active, List.mem_filter] at h; exact h.1

theorem Crew.zeroed_sub {c : Crew} {i : Instr} {m : LaneMask} {l : Nat} (h : l ∈ c.zeroed i m) : l ∈ lanesOf m := by
  unfold Crew.zeroed at h; split at h
  · exact (List.mem_filter.mp h).1
  · simp at h

/-- No lane is both active and zeroed. -/
theorem Crew.active_not_zeroed {c : Crew} {i : Instr} {m : LaneMask} {l : Nat} (h : l ∈ c.active i m) : l ∉ c.zeroed i m := by
  intro h'
  unfold Crew.zeroed at h'; split at h'
  · simp only [Crew.active, List.mem_filter, Bool.and_eq_true, Bool.not_eq_true'] at h h'
    rw [h.2.2] at h'; simp at h'
  · simp at h'

/-! ## Counted reads (R25) -/

theorem Crew.countReads_regs (c : Crew) (rs ls : List Nat) : c.countReads rs ls = { c with regs := (c.countReads rs ls).regs } := by
  have one : ∀ (n : Nat) (ls : List Nat) (c : Crew),
      ls.foldl (fun c l => c.setSlot (c.win n) l (c.slot (c.win n) l).read) c =
        { c with regs := (ls.foldl (fun c l => c.setSlot (c.win n) l (c.slot (c.win n) l).read) c).regs } := by
    intro n ls
    induction ls with
    | nil => intro c; rfl
    | cons l ls ih => intro c; simp only [List.foldl]; rw [ih]; rfl
  unfold Crew.countReads
  induction rs generalizing c with
  | nil => rfl
  | cons r rs ih => simp only [List.foldl]; rw [ih, one r ls c]

/-- Reads change no value. -/
theorem Crew.countReads_val (c : Crew) (rs ls : List Nat) (r l : Nat) (hl : l < 32) (hs : ∀ l ∈ ls, l < 32) :
    ((c.countReads rs ls).slot r l).val = (c.slot r l).val := by
  have one : ∀ (n : Nat) (ls : List Nat) (c : Crew), (∀ l ∈ ls, l < 32) →
      ((ls.foldl (fun c l => c.setSlot (c.win n) l (c.slot (c.win n) l).read) c).slot r l).val = (c.slot r l).val := by
    intro n ls
    induction ls with
    | nil => intro c _; rfl
    | cons j ls ih =>
      intro c h
      simp only [List.foldl]
      rw [ih _ (fun l h' => h l (List.mem_cons_of_mem _ h')), Crew.slot_setSlot _ _ _ _ _ _ (h j List.mem_cons_self) hl]
      split
      · rename_i h2; obtain ⟨rfl, rfl⟩ := h2; unfold Slot.read; split <;> rfl
      · rfl
  unfold Crew.countReads
  induction rs generalizing c with
  | nil => rfl
  | cons n rs ih => simp only [List.foldl]; rw [ih, one n ls c hs]

/-! ## Writing results -/

theorem Crew.writeWide_regs (c : Crew) (n w l v k : Nat) : c.writeWide n w l v k = { c with regs := (c.writeWide n w l v k).regs } := by
  unfold Crew.writeWide
  generalize List.range w = ks
  induction ks generalizing c with
  | nil => rfl
  | cons j ks ih => simp only [List.foldl]; rw [ih]; rfl

theorem Crew.writeWide_slot (c : Crew) (n w l v cnt r l' : Nat) (hl : l < 32) (hl' : l' < 32) :
    (c.writeWide n w l v cnt).slot r l' =
      if l' = l ∧ c.win n ≤ r ∧ r < c.win n + w then
        { val := resWord v (r - c.win n), cnt := BitVec.ofNat 2 cnt, rel := false } else c.slot r l' := by
  induction w with
  | zero => rw [if_neg (by omega)]; rfl
  | succ w ih =>
    have step : c.writeWide n (w + 1) l v cnt = (c.writeWide n w l v cnt).writeReg ((c.writeWide n w l v cnt).win (n + w)) l (resWord v w) cnt := by
      simp [Crew.writeWide, List.range_succ]
    have hw : (c.writeWide n w l v cnt).win (n + w) = c.win n + w := by
      rw [Crew.writeWide_regs]; simp [Crew.win]; omega
    rw [step, hw, Crew.slot_writeReg _ _ _ _ _ _ _ hl hl', ih]
    by_cases h1 : r = c.win n + w ∧ l' = l
    · obtain ⟨rfl, rfl⟩ := h1
      simp
    · rw [if_neg h1]
      by_cases h2 : l' = l ∧ c.win n ≤ r ∧ r < c.win n + w
      · rw [if_pos h2, if_pos (by omega)]
      · rw [if_neg h2, if_neg (by omega)]

theorem Crew.writeResults_regs (c : Crew) (f : Info) (rs : List Res) :
    c.writeResults f rs = { c with regs := (c.writeResults f rs).regs } := by
  unfold Crew.writeResults
  induction rs generalizing c with
  | nil => rfl
  | cons r rs ih => simp only [List.foldl]; rw [ih, Crew.writeWide_regs]

/-- A result that writes window register n in a lane. -/
def Res.covers (wb w : Nat) (r : Res) (n l : Nat) : Prop := l = r.2.1 ∧ 16 * wb + r.1 ≤ n ∧ n < 16 * wb + r.1 + w

/-- A slot that no result names is unchanged. -/
theorem Crew.writeResults_other (c : Crew) (f : Info) (rs : List Res) (n l : Nat) (hl : l < 32) (hr : ∀ r ∈ rs, r.2.1 < 32)
    (h : ∀ r ∈ rs, ¬ Res.covers c.wb (f.dst.getD (0, 1)).2 r n l) : (c.writeResults f rs).slot n l = c.slot n l := by
  unfold Crew.writeResults
  induction rs generalizing c with
  | nil => rfl
  | cons r rs ih =>
    simp only [List.foldl]
    have hwb : (c.writeWide r.1 (f.dst.getD (0, 1)).2 r.2.1 r.2.2 f.cnt).wb = c.wb := by rw [Crew.writeWide_regs]
    rw [ih _ (fun x hx => hr x (List.mem_cons_of_mem _ hx)) (by rw [hwb]; exact fun x hx => h x (List.mem_cons_of_mem _ hx)),
      Crew.writeWide_slot _ _ _ _ _ _ _ _ (hr r List.mem_cons_self) hl, if_neg (by simpa [Res.covers, Crew.win] using h r List.mem_cons_self)]

/-- A slot that some result names, where all that name it give it one value, has that value. -/
theorem Crew.writeResults_slot (c : Crew) (f : Info) (rs : List Res) (n l : Nat) (v : Word) (hl : l < 32)
    (hr : ∀ r ∈ rs, r.2.1 < 32) (hex : ∃ r ∈ rs, Res.covers c.wb (f.dst.getD (0, 1)).2 r n l)
    (hall : ∀ r ∈ rs, Res.covers c.wb (f.dst.getD (0, 1)).2 r n l → resWord r.2.2 (n - (16 * c.wb + r.1)) = v) :
    (c.writeResults f rs).slot n l = { val := v, cnt := BitVec.ofNat 2 f.cnt, rel := false } := by
  induction rs generalizing c with
  | nil => obtain ⟨r, h, _⟩ := hex; simp at h
  | cons r rs ih =>
    have hwb : (c.writeWide r.1 (f.dst.getD (0, 1)).2 r.2.1 r.2.2 f.cnt).wb = c.wb := by rw [Crew.writeWide_regs]
    have step : c.writeResults f (r :: rs) = (c.writeWide r.1 (f.dst.getD (0, 1)).2 r.2.1 r.2.2 f.cnt).writeResults f rs := rfl
    rw [step]
    by_cases h2 : ∃ x ∈ rs, Res.covers c.wb (f.dst.getD (0, 1)).2 x n l
    · exact ih _ (fun x hx => hr x (List.mem_cons_of_mem _ hx)) (by rw [hwb]; exact h2)
        (by rw [hwb]; exact fun x hx => hall x (List.mem_cons_of_mem _ hx))
    · have hc : Res.covers c.wb (f.dst.getD (0, 1)).2 r n l := by
        obtain ⟨x, hx, hc⟩ := hex
        rcases List.mem_cons.mp hx with rfl | hx
        · exact hc
        · exact absurd ⟨x, hx, hc⟩ h2
      rw [Crew.writeResults_other _ _ _ _ _ hl (fun x hx => hr x (List.mem_cons_of_mem _ hx))
        (by rw [hwb]; exact fun x hx hc => h2 ⟨x, hx, hc⟩),
        Crew.writeWide_slot _ _ _ _ _ _ _ _ (hr r List.mem_cons_self) hl, if_pos (by simpa [Res.covers, Crew.win] using hc)]
      have := hall r List.mem_cons_self hc
      simp only [Crew.win, this]

/-! ## The elements of a block (R45, R46) -/

theorem Info.elems_nodup (f : Info) : f.elems.Nodup := List.nodup_range.product List.nodup_range

theorem Info.mem_elems {f : Info} {e : Nat × Nat} : e ∈ f.elems ↔ e.1 < f.rows ∧ e.2 < f.cols := by
  simp only [Info.elems, List.mem_flatMap, List.mem_range, List.mem_map]
  constructor
  · rintro ⟨i, hi, j, hj, rfl⟩; exact ⟨hi, hj⟩
  · rintro ⟨h1, h2⟩; exact ⟨e.1, h1, e.2, h2, rfl⟩

/-- The elements of a block that stays inside the window have registers of their own. -/
theorem Info.opField_inj {f : Info} {o e e' : Nat × Nat} {k k' : Nat} (ho : o ∈ f.operands) (hb : f.extentBad = false)
    (he : e ∈ f.elems) (he' : e' ∈ f.elems) (hk : k < o.2) (hk' : k' < o.2) (h : opField o e + k = opField o e' + k') :
    e = e' ∧ k = k' := by
  rw [Info.mem_elems] at he he'
  unfold opField at h
  by_cases h1 : f.rows = 1 ∧ f.cols = 1
  · obtain ⟨a, b⟩ := e; obtain ⟨a', b'⟩ := e'
    simp only [h1] at he he'
    obtain ⟨rfl, rfl⟩ : a = 0 ∧ b = 0 := by omega
    obtain ⟨rfl, rfl⟩ : a' = 0 ∧ b' = 0 := by omega
    exact ⟨rfl, by omega⟩
  · have hx := hb
    simp only [Info.extentBad, Bool.and_eq_false_iff, Bool.or_eq_false_iff, bne_eq_false_iff_eq, List.any_eq_false] at hx
    rcases hx with hx | hx
    · exact absurd hx h1
    · have hx := hx o ho
      simp only [Bool.or_eq_true, decide_eq_true_eq, not_or, not_lt] at hx
      obtain ⟨a, b⟩ := e; obtain ⟨a', b'⟩ := e'
      simp only at he he' h ⊢
      have hb1 : o.2 * b ≤ o.2 * (f.cols - 1) := Nat.mul_le_mul_left _ (by omega)
      have hb2 : o.2 * b' ≤ o.2 * (f.cols - 1) := Nat.mul_le_mul_left _ (by omega)
      have hm : o.2 * b + k = o.2 * b' + k' ∧ a = a' := by omega
      have hbb : b = b' := by
        have e1 : (o.2 * b + k) / o.2 = b := by
          rw [Nat.mul_add_div (by omega), Nat.div_eq_of_lt hk, Nat.add_zero]
        have e2 : (o.2 * b' + k') / o.2 = b' := by
          rw [Nat.mul_add_div (by omega), Nat.div_eq_of_lt hk', Nat.add_zero]
        rw [← e1, hm.1, e2]
      subst hbb
      exact ⟨by rw [hm.2], by omega⟩

/-! ## R102 as a whole -/

theorem Crew.releaseForms_eq (c : Crew) (rs : List Nat) : c.releaseForms rs = { c with forms := (c.releaseForms rs).forms } := by
  unfold Crew.releaseForms; split <;> rfl

/-- `compute` changes registers and pending forms alone. -/
theorem Crew.compute_eq (c : Crew) (i : Instr) (u : Issue) (fn : Nat → Nat → (Nat → Nat) → Nat) :
    c.compute i u fn = { c with regs := (c.compute i u fn).regs, forms := (c.compute i u fn).forms } := by
  unfold Crew.compute
  simp only
  rw [Crew.writeResults_regs, Crew.releaseForms_eq, Crew.countReads_regs]

theorem Crew.results_lane {c : Crew} {i : Instr} {u : Issue} {fn : Nat → Nat → (Nat → Nat) → Nat} {r : Res}
    (h : r ∈ c.results i u fn ++ c.zeros i u) : ∃ e ∈ (info i).elems, r.1 = opField ((info i).dst.getD (0, 1)) e ∧
      r.2.1 ∈ c.active i u.lanes ++ c.zeroed i u.lanes := by
  simp only [List.mem_append, Crew.results, Crew.zeros, List.mem_flatMap, List.mem_map] at h ⊢
  rcases h with ⟨e, he, l, hl, rfl⟩ | ⟨e, he, l, hl, rfl⟩
  · exact ⟨e.1, (List.mem_zipIdx' he).2 ▸ List.getElem_mem _, rfl, .inl hl⟩
  · exact ⟨e, he, rfl, .inr hl⟩

/-- Lanes and registers that are not written keep their values. -/
theorem Crew.compute_kept (c : Crew) (i : Instr) (u : Issue) (fn : Nat → Nat → (Nat → Nat) → Nat) (r l : Nat) (hl : l < 32)
    (h : r ∉ (info i).writeRegs.map c.win ∨ l ∉ c.active i u.lanes ++ c.zeroed i u.lanes) (hd : (info i).dst.isSome) :
    ((c.compute i u fn).slot r l).val = (c.slot r l).val := by
  unfold Crew.compute
  simp only
  have hwb : ((c.countReads (info i).readRegs (c.active i u.lanes)).releaseForms ((info i).writeRegs.map c.win)).wb = c.wb := by
    rw [Crew.releaseForms_eq, Crew.countReads_regs]
  rw [Crew.writeResults_other _ _ _ _ _ hl]
  · have e : ((c.countReads (info i).readRegs (c.active i u.lanes)).releaseForms ((info i).writeRegs.map c.win)).slot r l =
        (c.countReads (info i).readRegs (c.active i u.lanes)).slot r l := by rw [Crew.releaseForms_eq]; rfl
    rw [e, Crew.countReads_val _ _ _ _ _ hl (fun l h => lanesOf_lt (Crew.active_sub h))]
  · intro x hx
    obtain ⟨e, _, _, hx⟩ := Crew.results_lane hx
    rcases List.mem_append.mp hx with hx | hx
    · exact lanesOf_lt (Crew.active_sub hx)
    · exact lanesOf_lt (Crew.zeroed_sub hx)
  · intro x hx hc
    obtain ⟨e, he, hn, hlx⟩ := Crew.results_lane hx
    obtain ⟨h1, h2, h3⟩ := hc
    rw [hwb] at h2 h3
    rcases h with h | h
    · apply h
      obtain ⟨o, ho⟩ := Option.isSome_iff_exists.mp hd
      simp only [Info.writeRegs, ho, List.mem_map, List.mem_flatMap, opRegs, List.mem_range]
      rw [ho] at hn h3
      simp only [Option.getD_some] at hn h3
      exact ⟨opField o e + (r - (16 * c.wb + x.1)), ⟨e, he, r - (16 * c.wb + x.1), by omega, rfl⟩, by simp only [Crew.win]; omega⟩
    · rw [h1] at h; exact h hlx

/-- Every element of every lane gets its value, or zero where the mask zeroes. -/
theorem Crew.compute_slot (c : Crew) (i : Instr) (u : Issue) (fn : Nat → Nat → (Nat → Nat) → Nat) {o : Nat × Nat}
    (ho : (info i).dst = some o) (hb : (info i).extentBad = false) {e : (Nat × Nat) × Nat} (he : e ∈ (info i).elems.zipIdx)
    {k : Nat} (hk : k < o.2) {l : Nat} :
    (l ∈ c.active i u.lanes → (c.compute i u fn).slot (c.win (opField o e.1 + k)) l =
      { val := resWord (fn l e.2 (fun k => (c.operandValues (info i) e.1 l)[k]?.getD 0)) k, cnt := BitVec.ofNat 2 (info i).cnt, rel := false }) ∧
    (l ∈ c.zeroed i u.lanes → (c.compute i u fn).slot (c.win (opField o e.1 + k)) l =
      { val := 0, cnt := BitVec.ofNat 2 (info i).cnt, rel := false }) := by
  have hop : o ∈ (info i).operands := by simp [Info.operands, ho]
  have hem : e.1 ∈ (info i).elems := (List.mem_zipIdx' he).2 ▸ List.getElem_mem _
  have hwb : ((c.countReads (info i).readRegs (c.active i u.lanes)).releaseForms ((info i).writeRegs.map c.win)).wb = c.wb := by
    rw [Crew.releaseForms_eq, Crew.countReads_regs]
  have hlanes : ∀ r ∈ c.results i u fn ++ c.zeros i u, r.2.1 < 32 := by
    intro x hx
    obtain ⟨_, _, _, hx⟩ := Crew.results_lane hx
    rcases List.mem_append.mp hx with hx | hx
    · exact lanesOf_lt (Crew.active_sub hx)
    · exact lanesOf_lt (Crew.zeroed_sub hx)
  have key : ∀ (v : Nat) (hl : l < 32), (opField o e.1, l, v) ∈ c.results i u fn ++ c.zeros i u →
      (∀ r ∈ c.results i u fn ++ c.zeros i u, r.1 = opField o e.1 → r.2.1 = l → resWord r.2.2 k = resWord v k) →
      (c.compute i u fn).slot (c.win (opField o e.1 + k)) l = { val := resWord v k, cnt := BitVec.ofNat 2 (info i).cnt, rel := false } := by
    intro v hl hin hall
    unfold Crew.compute
    simp only
    refine Crew.writeResults_slot _ _ _ _ _ _ hl hlanes ⟨_, hin, ?_⟩ ?_
    · refine ⟨rfl, ?_, ?_⟩ <;> rw [hwb] <;> simp only [ho, Option.getD_some, Crew.win] <;> omega
    · intro x hx hc
      obtain ⟨e', he', hn, hlx⟩ := Crew.results_lane hx
      obtain ⟨h1, h2, h3⟩ := hc
      simp only [ho, Option.getD_some] at hn
      rw [hwb] at h2 h3 ⊢
      rw [ho] at h3
      simp only [Option.getD_some, Crew.win] at h2 h3 ⊢
      rw [hn] at h2 h3 ⊢
      obtain ⟨rfl, hkk⟩ := Info.opField_inj (k := k) (k' := 16 * c.wb + (opField o e.1 + k) - (16 * c.wb + opField o e')) hop hb hem he' hk
        (by omega) (by omega)
      rw [← hkk]
      exact hall x hx hn h1.symm
  have uniq : ∀ y ∈ (info i).elems.zipIdx, opField o y.1 = opField o e.1 → y = e := by
    intro y hy h
    have hym : y.1 ∈ (info i).elems := (List.mem_zipIdx' hy).2 ▸ List.getElem_mem _
    obtain ⟨h1, _⟩ := Info.opField_inj (k := k) (k' := k) hop hb hym hem hk hk (by omega)
    have a := List.mem_zipIdx' hy
    have b := List.mem_zipIdx' he
    have : y.2 = e.2 := by
      have hn := Info.elems_nodup (info i)
      refine (List.Nodup.getElem_inj_iff hn (hi := a.1) (hj := b.1)).mp ?_
      rw [← a.2, ← b.2, h1]
    exact Prod.ext h1 this
  constructor
  · intro hl
    refine key _ (lanesOf_lt (Crew.active_sub hl)) ?_ ?_
    · refine List.mem_append_left _ ?_
      simp only [Crew.results, List.mem_flatMap, List.mem_map]
      exact ⟨e, he, l, hl, by simp [ho]⟩
    · intro r hr h1 h2
      rcases List.mem_append.mp hr with hr | hr
      · simp only [Crew.results, List.mem_flatMap, List.mem_map, ho, Option.getD_some] at hr
        obtain ⟨y, hy, j, hj, rfl⟩ := hr
        have := uniq y hy h1
        subst this
        simp only at h2
        subst h2
        rfl
      · simp only [Crew.zeros, List.mem_flatMap, List.mem_map] at hr
        obtain ⟨y, hy, j, hj, rfl⟩ := hr
        simp only at h2
        subst h2
        exact absurd hj (Crew.active_not_zeroed hl)
  · intro hl
    have := key 0 (lanesOf_lt (Crew.zeroed_sub hl)) ?_ ?_
    · simpa [resWord] using this
    · refine List.mem_append_right _ ?_
      simp only [Crew.zeros, List.mem_flatMap, List.mem_map]
      exact ⟨e.1, hem, l, hl, by simp [ho]⟩
    · intro r hr h1 h2
      rcases List.mem_append.mp hr with hr | hr
      · simp only [Crew.results, List.mem_flatMap, List.mem_map] at hr
        obtain ⟨y, hy, j, hj, rfl⟩ := hr
        simp only at h2
        subst h2
        exact absurd hl (Crew.active_not_zeroed hj)
      · simp only [Crew.zeros, List.mem_flatMap, List.mem_map] at hr
        obtain ⟨y, hy, j, hj, rfl⟩ := hr
        rfl

end Sys2Proof.Machine
end

