-- ==== Sys2Proof/Laws/Issue.lean ====
section
/-! SUPPORT. The frame of every issue (`State.issue`, `State.finish`) and, from it, what `aluAt` and `aluPair` do. -/

namespace Sys2Proof.Machine

/-! ## Threads -/

theorem Crew.thread_setThread (c : Crew) (l j : Nat) (t : Thread) : (c.setThread l t).thread j = if j = l then t else c.thread j :=
  Tab.get_set _ _ _ _ _

theorem Crew.onThreads_eq (c : Crew) (ls : List Nat) (f : Thread → Thread) : c.onThreads ls f = { c with threads := (c.onThreads ls f).threads } := by
  unfold Crew.onThreads
  induction ls generalizing c with
  | nil => rfl
  | cons l ls ih => simp only [List.foldl]; rw [ih]; rfl

theorem Crew.onThreads_other (c : Crew) (ls : List Nat) (f : Thread → Thread) (l : Nat) (h : l ∉ ls) : (c.onThreads ls f).thread l = c.thread l := by
  unfold Crew.onThreads
  induction ls generalizing c with
  | nil => rfl
  | cons j ls ih =>
    simp only [List.mem_cons, not_or] at h
    simp only [List.foldl]
    rw [ih _ h.2, Crew.modThread, Crew.thread_setThread, if_neg h.1]

theorem Crew.onThreads_mem (c : Crew) (ls : List Nat) (f : Thread → Thread) (l : Nat) (hn : ls.Nodup) (h : l ∈ ls) :
    (c.onThreads ls f).thread l = f (c.thread l) := by
  unfold Crew.onThreads
  induction ls generalizing c with
  | nil => simp at h
  | cons j ls ih =>
    simp only [List.nodup_cons] at hn
    simp only [List.foldl]
    rcases List.mem_cons.mp h with rfl | h2
    · have := Crew.onThreads_other (c.modThread l f) ls f l hn.1
      unfold Crew.onThreads at this
      rw [this, Crew.modThread, Crew.thread_setThread, if_pos rfl]
    · rw [ih _ hn.2 h2, Crew.modThread, Crew.thread_setThread, if_neg (by rintro rfl; exact hn.1 h2)]

theorem lanesOf_nodup (m : LaneMask) : (lanesOf m).Nodup := List.nodup_range.filter _

theorem Crew.advance_eq (c : Crew) (u : Issue) (i : Instr) (now : Nat) : c.advance u i now = { c with threads := (c.advance u i now).threads } :=
  Crew.onThreads_eq _ _ _

theorem Crew.advance_advanced (c : Crew) (u : Issue) (i : Instr) (now : Nat) : Advanced i u c (c.advance u i now) := by
  intro l
  constructor
  · intro h
    unfold Crew.advance
    rw [Crew.onThreads_mem _ _ _ _ (lanesOf_nodup _) h]
    exact ⟨rfl, rfl⟩
  · intro h
    unfold Crew.advance
    rw [Crew.onThreads_other _ _ _ _ h]

/-! ## The end of an issue -/

theorem Crew.settleWith_eq (c : Crew) (i : Instr) (lat now : Nat) : c.settleWith i lat now =
    { c with busy := (c.settleWith i lat now).busy, rcache := (c.settleWith i lat now).rcache } := rfl

/-- The crew after `finish`. -/
theorem State.finish_crew (s : State) (u : Issue) (i : Instr) (c : Crew) : (s.finish u i c).crew u.crew =
    { c with threads := (c.advance u i s.cycle).threads, busy := ((c.advance u i s.cycle).settleResults i s.cycle).busy,
             rcache := ((c.advance u i s.cycle).settleResults i s.cycle).rcache, lastIssue := s.cycle,
             brought := c.brought.filter (fun b => b.1 != u.pc) } := by
  unfold State.finish State.charge
  simp only [State.modCore_crew', State.modCrew_crew_same, State.setCrew_crew_same, State.setCrew_cycle]
  unfold Crew.settleResults
  rw [Crew.settleWith_eq, Crew.advance_eq]

/-- `finish` touches its crew and the issue notes of its core alone. -/
theorem State.finish_onlyCrew (s : State) (u : Issue) (i : Instr) (c : Crew) : OnlyCrew u s (s.finish u i c) := by
  refine ⟨rfl, ?_, ?_⟩
  · intro k hk
    unfold State.finish State.charge
    rw [State.modCore_crew', State.modCrew_crew, if_neg hk, State.setCrew_crew_other _ _ _ _ hk]
  · intro g
    unfold State.finish State.charge
    simp only [State.modCore_core]
    split
    · rename_i h
      simp [h]
    · rfl

theorem State.issue_runs {i : Instr} {u : Issue} {s : State} (h : Runs i u s) (body : Issue → Out) : s.issue i body = body u := by
  unfold State.issue
  rw [h.1]
  simp only [h.2.1, h.2.2.1, h.2.2.2, Bool.false_eq_true, if_false]

/-- What `aluAt` does where nothing is pending: the frame and the values of `Gives`. -/
theorem aluAt_gives {i : Instr} {u : Issue} {s : State} {fn : Crew → Issue → Nat → Nat → (Nat → Nat) → Nat}
    {fn' : Nat → Nat → (Nat → Nat) → Nat} {o : Nat × Nat} (hx : exec i s = aluAt i fn s) (hd : (info i).dst = some o)
    (hv : ∀ e ∈ (info i).elems.zipIdx, ∀ l ∈ (s.crew u.crew).active i u.lanes, ∀ k, k < o.2 →
      resWord (fn (s.crew u.crew) u l e.2 (operandsAt i (s.crew u.crew) e.1 l)) k = resWord (fn' l e.2 (operandsAt i (s.crew u.crew) e.1 l)) k) :
    Gives i u s fn' := by
  intro h hc
  have hb : (info i).extentBad = false := by
    have := h.2.2.2
    unfold Crew.operandTrap at this
    simp only at this
    split at this
    · simp at this
    · simp_all
  refine ⟨s.finish u i ((s.crew u.crew).compute i u (fn (s.crew u.crew) u)), ?_, State.finish_onlyCrew _ _ _ _, ?_⟩
  · rw [hx]; unfold aluAt; rw [State.issue_runs h]; simp only [hc]
  · simp only [State.finish_crew, hd, Option.getD_some]
    have hk := Crew.compute_eq (s.crew u.crew) i u (fn (s.crew u.crew) u)
    refine ⟨?_, ?_, ?_, ?_⟩
    · intro l
      have := Crew.advance_advanced ((s.crew u.crew).compute i u (fn (s.crew u.crew) u)) u i s.cycle l
      rw [hk] at this ⊢
      exact this
    · intro r l hl hr
      exact Crew.compute_kept _ i u _ r l hl hr (by simp [hd])
    · unfold CrewKept; rw [hk]
    · intro e he k hk'
      constructor
      · intro l hl
        have := (Crew.compute_slot (s.crew u.crew) i u (fn (s.crew u.crew) u) hd hb he hk' (l := l)).1 hl
        refine Eq.trans this ?_
        have e1 := hv e he l hl k hk'
        unfold operandsAt at e1 ⊢
        rw [e1]
      · intro l hl
        exact (Crew.compute_slot (s.crew u.crew) i u (fn (s.crew u.crew) u) hd hb he hk' (l := l)).2 hl

/-! ## Legal encodings (R60) -/

theorem leastReason_none (l : List Nat) : leastReason l = none ↔ l = [] := by
  cases l with
  | nil => simp [leastReason]
  | cons r rs => simp only [leastReason]; cases leastReason rs <;> simp

/-- A legal instruction gives no reason of R60. -/
theorem legal_bad {i : Instr} (h : illegalOf i = none) : (info i).bad = [] ∧ pairReasons (info i) = [] := by
  have key : ∀ a, illegalInfo a (baseReasons (info i)) = none → baseReasons (info i) = [] := by
    intro a h
    rw [← leastReason_none]
    unfold illegalInfo at h
    split at h <;> simp_all
  have hb : baseReasons (info i) = [] := by
    unfold illegalOf at h
    simp only at h
    split at h <;> exact key _ h
  simpa [baseReasons] using hb

/-! ## Predicate pairs -/

theorem Crew.pred_setPred (c : Crew) (l p l' p' : Nat) (v : Bool) (_ : p < 12) (hp' : p' < 12) :
    (c.setPred l p v).pred l' p' = if l' = l ∧ p' = p then v else c.pred l' p' := by
  have hm : ∀ j, j < 12 → (BitVec.ofNat 12 (2 ^ p)).getLsbD j = decide (j = p) := by
    intro j hj
    simp only [BitVec.getLsbD_ofNat, Nat.testBit_two_pow, hj, decide_true, Bool.true_and]
    exact decide_eq_decide.mpr eq_comm
  simp only [Crew.pred, Crew.setPred, Tab.get_set]
  by_cases hl : l' = l
  · subst hl
    cases v
    · simp only [if_true, Bool.false_eq_true, if_false, BitVec.getLsbD_and, BitVec.getLsbD_not, hp', decide_true, Bool.true_and,
        hm p' hp', true_and]
      by_cases h : p' = p <;> simp [h]
    · simp only [if_true, BitVec.getLsbD_or, hm p' hp', true_and]
      by_cases h : p' = p <;> simp [h]
  · simp [hl]

theorem Crew.setPred_eq (c : Crew) (l p : Nat) (v : Bool) : c.setPred l p v = { c with preds := (c.setPred l p v).preds } := rfl

/-- A fold that writes one pair in each lane of a list. -/
theorem foldPair (ls : List (Nat × Bool × Bool)) (P : Nat) (hP : P < 6) (c : Crew) :
    let d := ls.foldl (fun (c : Crew) r => (c.setPred r.1 (2 * P) r.2.1).setPred r.1 (2 * P + 1) r.2.2) c
    d = { c with preds := d.preds } ∧
    (∀ l p, p < 12 → (p ≠ 2 * P ∧ p ≠ 2 * P + 1) ∨ (∀ r ∈ ls, r.1 ≠ l) → d.pred l p = c.pred l p) ∧
    (∀ l a b, (∃ r ∈ ls, r.1 = l) → (∀ r ∈ ls, r.1 = l → r.2 = (a, b)) → d.pred l (2 * P) = a ∧ d.pred l (2 * P + 1) = b) := by
  induction ls generalizing c with
  | nil => exact ⟨rfl, fun _ _ _ _ => rfl, fun _ _ _ ⟨r, h, _⟩ => by simp at h⟩
  | cons r ls ih =>
    obtain ⟨h1, h2, h3⟩ := ih ((c.setPred r.1 (2 * P) r.2.1).setPred r.1 (2 * P + 1) r.2.2)
    simp only [List.foldl]
    refine ⟨by rw [h1]; rfl, ?_, ?_⟩
    · intro l p hp h
      rw [h2 l p hp (h.imp id (fun h x hx => h x (List.mem_cons_of_mem _ hx))), Crew.pred_setPred _ _ _ _ _ _ (by omega) hp,
        Crew.pred_setPred _ _ _ _ _ _ (by omega) hp]
      rcases h with h | h
      · rw [if_neg (fun e => h.2 e.2), if_neg (fun e => h.1 e.2)]
      · have := h r List.mem_cons_self
        rw [if_neg (fun e => this e.1.symm), if_neg (fun e => this e.1.symm)]
    · intro l a b hex hall
      by_cases hin : ∃ x ∈ ls, x.1 = l
      · exact h3 l a b hin (fun x hx => hall x (List.mem_cons_of_mem _ hx))
      · have hno : ∀ x ∈ ls, x.1 ≠ l := fun x hx e => hin ⟨x, hx, e⟩
        have hr : r.1 = l := by
          obtain ⟨x, hx, e⟩ := hex
          rcases List.mem_cons.mp hx with rfl | hx
          · exact e
          · exact absurd e (hno x hx)
        have hv := hall r List.mem_cons_self hr
        rw [h2 l _ (by omega) (.inr hno), h2 l _ (by omega) (.inr hno), Crew.pred_setPred _ _ _ _ _ _ (by omega) (by omega),
          Crew.pred_setPred _ _ _ _ _ _ (by omega) (by omega), Crew.pred_setPred _ _ _ _ _ _ (by omega) (by omega), hv, hr]
        simp

/-- What `computePair` does. -/
theorem Crew.computePair_spec (c : Crew) (i : Instr) (u : Issue) (fn : Nat → (Nat → Nat) → Bool) (hP : (info i).pdst.getD 0 < 6) :
    let d := c.computePair i u fn
    let P := (info i).pdst.getD 0
    d = { c with regs := d.regs, preds := d.preds } ∧ (∀ r l, l < 32 → (d.slot r l).val = (c.slot r l).val) ∧
    (∀ l ∈ c.active i u.lanes, d.pred l (2 * P) = fn l (operandsAt i c (0, 0) l) ∧ d.pred l (2 * P + 1) = !fn l (operandsAt i c (0, 0) l)) ∧
    (∀ l ∈ c.zeroed i u.lanes, d.pred l (2 * P) = false ∧ d.pred l (2 * P + 1) = false) ∧
    (∀ l p, p < 12 → (p ≠ 2 * P ∧ p ≠ 2 * P + 1) ∨ l ∉ c.active i u.lanes ++ c.zeroed i u.lanes → d.pred l p = c.pred l p) := by
  have hreg := Crew.countReads_regs c (info i).readRegs (c.active i u.lanes)
  have hpred : ∀ l p, (c.countReads (info i).readRegs (c.active i u.lanes)).pred l p = c.pred l p := by
    intro l p; rw [hreg]; rfl
  let A : List (Nat × Bool × Bool) := (c.active i u.lanes).map (fun l => (l, fn l (operandsAt i c (0, 0) l), !fn l (operandsAt i c (0, 0) l)))
  let Z : List (Nat × Bool × Bool) := (c.zeroed i u.lanes).map (fun l => (l, false, false))
  have hd : c.computePair i u fn = (A ++ Z).foldl (fun (c : Crew) r =>
      (c.setPred r.1 (2 * (info i).pdst.getD 0) r.2.1).setPred r.1 (2 * (info i).pdst.getD 0 + 1) r.2.2)
      (c.countReads (info i).readRegs (c.active i u.lanes)) := by
    simp only [Crew.computePair, List.foldl_append, List.foldl_map, A, Z, Crew.writePair, Crew.clearPair]
    rfl
  obtain ⟨h1, h2, h3⟩ := foldPair (A ++ Z) _ hP (c.countReads (info i).readRegs (c.active i u.lanes))
  rw [← hd] at h1 h2 h3
  refine ⟨?_, ?_, ?_, ?_, ?_⟩
  · rw [h1, hreg]
  · intro r l hl
    rw [h1]
    exact Crew.countReads_val c _ _ r l hl (fun l h => lanesOf_lt (Crew.active_sub h))
  · intro l hl
    refine h3 l _ _ ⟨(l, _, _), List.mem_append_left _ (List.mem_map.mpr ⟨l, hl, rfl⟩), rfl⟩ ?_
    intro r hr hrl
    rcases List.mem_append.mp hr with hr | hr
    · obtain ⟨j, hj, rfl⟩ := List.mem_map.mp hr
      simp only at hrl; subst hrl; rfl
    · obtain ⟨j, hj, rfl⟩ := List.mem_map.mp hr
      simp only at hrl; subst hrl
      exact absurd hj (Crew.active_not_zeroed hl)
  · intro l hl
    refine h3 l _ _ ⟨(l, _, _), List.mem_append_right _ (List.mem_map.mpr ⟨l, hl, rfl⟩), rfl⟩ ?_
    intro r hr hrl
    rcases List.mem_append.mp hr with hr | hr
    · obtain ⟨j, hj, rfl⟩ := List.mem_map.mp hr
      simp only at hrl; subst hrl
      exact absurd hl (Crew.active_not_zeroed hj)
    · obtain ⟨j, hj, rfl⟩ := List.mem_map.mp hr
      rfl
  · intro l p hp h
    rw [h2 l p hp (h.imp id ?_), hpred]
    intro h r hr e
    apply h
    rcases List.mem_append.mp hr with hr | hr
    · obtain ⟨j, hj, rfl⟩ := List.mem_map.mp hr
      simp only at e; subst e; exact List.mem_append_left _ hj
    · obtain ⟨j, hj, rfl⟩ := List.mem_map.mp hr
      simp only at e; subst e; exact List.mem_append_right _ hj

/-- An instruction that is not illegal in its crew's mode has no illegal field (R60). -/
theorem State.illegalIn_none {s : State} {k : Nat} {i : Instr} (h : s.illegalIn k i = none) : s.modeOk k i = true ∧ illegalOf i = none := by
  unfold State.illegalIn at h
  split at h
  · exact ⟨‹_›, h⟩
  · simp at h

/-- What `aluPair` does: the frame and the values of `GivesPair`. -/
theorem aluPair_gives {i : Instr} {u : Issue} {s : State} {fn : Crew → Issue → Nat → (Nat → Nat) → Bool}
    {fn' : Nat → (Nat → Nat) → Bool} (hx : exec i s = aluPair i fn s) (hP : illegalOf i = none → (info i).pdst.getD 0 < 6)
    (hv : ∀ l ∈ (s.crew u.crew).active i u.lanes,
      fn (s.crew u.crew) u l (operandsAt i (s.crew u.crew) (0, 0) l) = fn' l (operandsAt i (s.crew u.crew) (0, 0) l)) :
    GivesPair i u s fn' := by
  intro h
  refine ⟨s.finish u i ((s.crew u.crew).computePair i u (fn (s.crew u.crew) u)), ?_, State.finish_onlyCrew _ _ _ _, ?_⟩
  · rw [hx]; unfold aluPair; rw [State.issue_runs h]
  · obtain ⟨h1, h2, h3, h4, h5⟩ := Crew.computePair_spec (s.crew u.crew) i u (fn (s.crew u.crew) u) (hP (State.illegalIn_none h.2.1).2)
    simp only [State.finish_crew]
    refine ⟨?_, h2, ?_, ?_, h4, h5⟩
    · intro l
      have := Crew.advance_advanced ((s.crew u.crew).computePair i u (fn (s.crew u.crew) u)) u i s.cycle l
      rw [h1] at this ⊢
      exact this
    · unfold CrewKeptPreds; rw [h1]
    · intro l hl
      have := h3 l hl
      rw [hv l hl] at this
      exact this

end Sys2Proof.Machine
end

