-- ==== Sys2Proof/Laws/Memory.lean ====
section
/-! SUPPORT. Memory: reading after writing, and the canonical form (`Memory.wf`) that every memory operation keeps. -/

namespace Sys2Proof.Machine

theorem Memory.read_write (m : Memory) (a b : Nat) (v : Byte) : Memory.read (Memory.write m a v) b = if b = a then v else Memory.read m b :=
  Tab.get_set _ _ _ _ _

theorem Memory.wf_write {m : Memory} {a : Nat} {v : Byte} (h : Memory.wf m = true) : Memory.wf (Memory.write m a v) = true :=
  Tab.wf_set h

theorem Memory.wf_writeN {m : Memory} {a n v : Nat} (h : Memory.wf m = true) : Memory.wf (Memory.writeN m a n v) = true := by
  induction n generalizing m a v with
  | zero => exact h
  | succ n ih => exact ih (Memory.wf_write h)

theorem Memory.wf_filter {m : Memory} (f : Nat × Byte → Bool) (h : Memory.wf m = true) : Memory.wf (m.filter f) = true :=
  Tab.wf_filter f h

/-- A byte after a write of n bytes. -/
theorem Memory.read_writeN (m : Memory) (a n v b : Nat) :
    Memory.read (Memory.writeN m a n v) b =
      if a ≤ b ∧ b < a + n then BitVec.ofNat 8 (v / 256 ^ (b - a)) else Memory.read m b := by
  induction n generalizing m a v with
  | zero => simp only [Memory.writeN]; rw [if_neg (by omega)]
  | succ n ih =>
    simp only [Memory.writeN, ih, Memory.read_write]
    by_cases h1 : b = a
    · subst h1; simp
    · by_cases h2 : a + 1 ≤ b ∧ b < a + 1 + n
      · have h3 : a ≤ b ∧ b < a + (n + 1) := by omega
        simp only [h2, h3, and_self, ↓reduceIte]
        have : b - a = (b - (a + 1)) + 1 := by omega
        rw [this, Nat.pow_succ, Nat.div_div_eq_div_mul, Nat.mul_comm 256]
      · have h3 : ¬ (a ≤ b ∧ b < a + (n + 1)) := by omega
        simp only [h2, h3, h1, ↓reduceIte]

/-- Bytes outside a write are unchanged. -/
theorem Memory.read_writeN_other (m : Memory) (a n v b : Nat) (h : b < a ∨ a + n ≤ b) :
    Memory.read (Memory.writeN m a n v) b = Memory.read m b := by
  rw [Memory.read_writeN, if_neg (by omega)]

/-- Two memories that agree on n bytes read alike there. -/
theorem Memory.readN_congr {m m' : Memory} {a n : Nat} (h : ∀ b, a ≤ b → b < a + n → Memory.read m b = Memory.read m' b) :
    Memory.readN m a n = Memory.readN m' a n := by
  induction n generalizing a with
  | zero => rfl
  | succ n ih =>
    simp only [Memory.readN]
    rw [h a (by omega) (by omega), ih (fun b h1 h2 => h b (by omega) (by omega))]

/-- A number that was written is read back, as far as its bytes go. -/
theorem Memory.readN_writeN (m : Memory) (a n v : Nat) : Memory.readN (Memory.writeN m a n v) a n = v % 256 ^ n := by
  induction n generalizing m a v with
  | zero => simp [Memory.readN, Nat.mod_one]
  | succ n ih =>
    simp only [Memory.readN, Memory.writeN]
    rw [ih, Memory.read_writeN_other _ _ _ _ _ (by omega), Memory.read_write]
    have h : (256 : Nat) ^ (n + 1) = 256 * 256 ^ n := by rw [Nat.pow_succ, Nat.mul_comm]
    rw [if_pos rfl, BitVec.toNat_ofNat, h]
    exact (Nat.mod_mul (a := 256) (b := 256 ^ n) (x := v)).symm

/-! ## The operations on HBM and host memory keep the canonical form -/

theorem State.hbm_wf_hbmWrite {s : State} {q a n v : Nat} (h : Memory.wf s.hbm = true) : Memory.wf (s.hbmWrite q a n v).hbm = true :=
  Memory.wf_writeN h

theorem State.host_wf_hostWrite {s : State} {a n v : Nat} (h : Memory.wf s.hostMem = true) :
    Memory.wf (s.hostWrite a n v).hostMem = true := Memory.wf_writeN h

theorem noteCode_hbm (s : State) (l a n : Nat) : (noteCode s l a n).hbm = s.hbm ∧ (noteCode s l a n).hostMem = s.hostMem := by
  unfold noteCode
  generalize List.range ((a + n + 3) / 4 - a / 4) = ws
  induction ws generalizing s with
  | nil => exact ⟨rfl, rfl⟩
  | cons w ws ih =>
    simp only [List.foldl]
    split
    · exact ih s
    · exact ih _

theorem State.noteQueues_memories (s : State) (q a n : Nat) : (s.noteQueues q a n).hbm = s.hbm ∧ (s.noteQueues q a n).hostMem = s.hostMem := by
  simp only [State.noteQueues]
  split
  · exact ⟨rfl, rfl⟩
  · exact ⟨rfl, rfl⟩

theorem State.hbmWriteKey_memories (s : State) (q a n k v : Nat) (l : Option Nat) :
    (s.hbmWriteKey q a n k v l).hbm =
      (if inContext a || (s.sett q).inFaultBuffer a then s.hbm else Memory.writeN s.hbm (hbmAddr q a) n v) ∧
    (s.hbmWriteKey q a n k v l).hostMem = s.hostMem := by
  cases h : inContext a || (s.sett q).inFaultBuffer a <;> cases l <;>
    simp only [State.hbmWriteKey, h, Bool.false_eq_true, ↓reduceIte, State.noteQueues_memories, noteCode_hbm, and_self]

theorem State.memWf_hbmWriteKey {s : State} {q a n k v : Nat} {l : Option Nat} (h : Memory.wf s.hbm = true ∧ Memory.wf s.hostMem = true) :
    Memory.wf (s.hbmWriteKey q a n k v l).hbm = true ∧ Memory.wf (s.hbmWriteKey q a n k v l).hostMem = true := by
  obtain ⟨h1, h2⟩ := State.hbmWriteKey_memories s q a n k v l
  rw [h1, h2]
  split
  · exact h
  · exact ⟨Memory.wf_writeN h.1, h.2⟩

theorem State.memWf_memWrite {s : State} {t : Target} {n v : Nat} {l : Option Nat} (h : Memory.wf s.hbm = true ∧ Memory.wf s.hostMem = true) :
    Memory.wf (s.memWrite t n v l).hbm = true ∧ Memory.wf (s.memWrite t n v l).hostMem = true := by
  unfold State.memWrite
  split
  · exact State.memWf_hbmWriteKey h
  · exact ⟨h.1, Memory.wf_writeN h.2⟩
  · exact h

/-- Blocks' scratchpads are memories too: a near byte write keeps their form. -/
theorem Block.pad_wf_write {x : Block} {o : Nat} {v : Byte} (h : Memory.wf x.pad = true) : Memory.wf (Memory.write x.pad o v) = true :=
  Memory.wf_write h

theorem reset_memory : Memory.wf State.reset.hbm = true ∧ Memory.wf State.reset.hostMem = true := ⟨rfl, rfl⟩

end Sys2Proof.Machine
end

