-- ==== Sys2Proof/Tests/Slice0.lean ====
section
/-! SUPPORT. Tests: words written out from the encodings of the spec, ill-formed terms, and for every obligation with hypotheses a concrete
state and operands that meet them. Expected words come from spec/03 to spec/05 by hand. -/

open Sys2Proof Sys2Proof.Machine

namespace Sys2Proof.Tests

set_option Elab.async false

/-! ## Decoding: words written from the formats and codes of R33, R34, R49 to R58 -/

/-- A base word from its four fields: major 31:25, d 24:18, a 17:11, b 10:4, g 3:0 (R33). -/
def word (m d a b g : Nat) : Nat := m * 2 ^ 25 + d * 2 ^ 18 + a * 2 ^ 11 + b * 2 ^ 4 + g

theorem test_decode_integer : ∀ p ∈ ([(word 0x01 3 1 2 12, .iadd none 3 1 2 12), (word 0x02 3 1 2 13, .isub none 3 1 2 13),
    (word 0x03 3 1 127 12, .iaddi none 3 1 127 12), (word 0x07 3 1 2 12, .imad none 3 1 2 12), (word 0x0C 3 1 2 12, .imin none 3 1 2 12),
    (word 0x08 4 2 6 12, .iadd64 none 4 2 6 12), (word 0x0B 4 1 2 12, .nmulw none 4 1 2 12)] : List (Nat × Instr)),
    decodeTableWord 32 p.1 = some p.2 := by decide

theorem test_decode_logic : ∀ p ∈ ([(word 0x14 3 1 2 12, .and none 3 1 2 12), (word 0x18 3 1 64 12, .andi none 3 1 64 12),
    (word 0x1E 3 1 31 12, .shli none 3 1 31 12), (word 0x20 3 1 5 12, .sari none 3 1 5 12), (word 0x21 3 1 4 12, .fshl none 3 1 4 12),
    (word 0x25 3 1 4 12, .bfi none 3 1 4 12), (word 0x26 3 1 0 12, .popc none 3 1 12), (word 0x29 3 1 2 12, .bmix none 3 1 2 12),
    (word 0x7E 3 1 7 12, .extFfs none 3 1 12)] : List (Nat × Instr)), decodeTableWord 32 p.1 = some p.2 := by decide

theorem test_decode_float : ∀ p ∈ ([(word 0x2D 10 11 12 12, .ffma none 10 11 12 12), (word 0x2E 3 1 2 12, .fmin none 3 1 2 12),
    (word 0x30 7 4 1 12, .fsfRsq none 7 4 12), (word 0x30 7 4 14 12, .fsfRint none 7 4 12), (word 0x31 3 1 2 12, .badd2 none 3 1 2 12),
    (word 0x36 3 1 2 12, .hfma2 none 3 1 2 12), (word 0x37 3 1 2 12, .dot4i none 3 1 2 12), (word 0x41 3 1 2 12, .dsdot4 none 3 1 2 12)]
    : List (Nat × Instr)), decodeTableWord 32 p.1 = some p.2 := by decide

theorem test_decode_convert : ∀ p ∈ ([(word 0x3B 6 7 0x2B 12, .cvt none 6 7 0 2 11 12), (word 0x3B 6 8 0x43 12, .cvt none 6 8 1 0 3 12),
    (word 0x3E 3 1 4 12, .mxsclE2m1 none 3 1 12), (word 0x40 3 1 0x21 12, .dscvtFromi32 none 3 1 1 12),
    (word 0x40 3 1 0x40 12, .dscvtCanon none 3 1 12), (word 0x3F 3 1 2 12, .dsmul none 3 1 2 12)] : List (Nat × Instr)),
    decodeTableWord 32 p.1 = some p.2 := by decide

theorem test_decode_predicates : ∀ p ∈ ([(word 0x42 (5 * 16 + 1) 1 2 12, .icmp none 5 1 1 2 12), (word 0x44 (6 * 16 + 3) 1 2 12, .fcmp none 6 3 1 2 12),
    (word 0x45 (2 * 16) 1 0x7F 12, .icmpi none 2 0 1 127 12), (word 0x46 3 1 10 12, .pand none 3 1 10 12), (word 0x48 5 11 0 12, .pxor none 5 11 0 12),
    (word 0x4A 3 0 0 12, .ptox none 3 12), (word 0x4B 0 3 0 12, .xtop none 3 12)] : List (Nat × Instr)),
    decodeTableWord 32 p.1 = some p.2 := by decide

theorem test_decode_lanes : ∀ p ∈ ([(word 0x49 3 1 2 5, .sel none 3 1 2 5), (word 0x4C 3 1 0 12, .mov none 3 1 12),
    (0x4D * 2 ^ 25 + 3 * 2 ^ 18 + 0x2000 * 2 ^ 4 + 12, .movi none 3 0x2000 12), (word 0x4F 20 21 16 12, .lxor none 20 21 16 12),
    (word 0x50 3 1 2 12, .lget none 3 1 2 12), (word 0x52 3 1 (2 * 32 + 5) 12, .lrots none 3 1 2 5 12), (word 0x53 3 7 3 12, .consMask none 3 7 12),
    (word 0x53 4 7 2 12, .consSame none 4 7 12), (word 0x54 3 0 12 12, .rdsys none 3 12 12), (word 0x55 0 3 5 12, .wrsys none 3 5 12)]
    : List (Nat × Instr)), decodeTableWord 32 p.1 = some p.2 := by decide

theorem test_decode_literal : decodeTableWord 64 (word 0x4E 3 0 0 12 + 0xDEADBEEF * 2 ^ 32) = some (.ldi none 3 12 0xDEADBEEF) := by decide

/-- HFMA2.ru.c=x30 with its prefix word: marker, mask 12, rnd 3, c 30. -/
theorem test_decode_prefix : decodeTableWord 64 (word 0x36 24 25 26 12 * 2 ^ 32 + 0xFF8CF000) = some (.hfma2 (some
    { mask := 12, rnd := 3, c := 30, mz := false, cnt := 0, rows := 0, cols := 0, strict := false }) 24 25 26 12) := by decide

theorem test_decode_memory : ∀ p ∈ ([(0xAC10140C, .ld none 4 2 4 0 12), (word 0x56 4 2 (5 * 16 + 3 * 4) 12, .ld none 4 2 5 3 12),
    (word 0x57 4 2 (4 * 16 + 2 * 2) 12, .lda none 4 2 4 2 12), (word 0x58 (5 * 16 + 1 * 4) 2 6 12, .st none 5 1 2 6 12),
    (word 0x59 (4 * 16 + 3 * 2) 2 6 12, .stl none 4 3 2 6 12), (word 0x5A 4 2 (4 * 16) 12, .ldk none 4 2 0 12),
    (word 0x5B 4 2 (3 * 8 + 2) 12, .rcn none 4 2 3 2 12), (word 0x5D 0 2 3 12, .cctlEvict none 2 12), (word 0x5D 0 0 1 12, .cctlInvall none 12),
    (word 0x5E 0 2 8 12, .pref none 2 2 12), (0xBE00002C, .fence none 0 2 12), (word 0x60 4 2 (9 * 8 + 4) 12, .atom none 4 2 9 4 12),
    (word 0x62 3 2 (10 * 8 + 1) 12, .red none 3 2 10 1 12), (word 0x63 4 2 (8 * 8 + 3) 12, .atom64 none 4 2 8 3 12)] : List (Nat × Instr)),
    decodeTableWord 32 p.1 = some p.2 := by decide

theorem test_decode_sync : ∀ p ∈ ([(word 0x64 0 2 5 12, .dqpush none 2 5 12), (word 0x66 4 2 0 12, .dqsteal none 4 2 12),
    (word 0x67 0 2 4 12, .binit none 2 4 12), (word 0x68 0 2 (64 + 1) 12, .arv none 2 1 1 12), (0xD000A01C, .arv none 20 0 1 12), (word 0x6A 3 2 5 12, .waitp none 3 2 5 12),
    (word 0x6B 3 2 4 12, .tryw none 3 2 4 12), (0x6C * 2 ^ 25 + 1 * 2 ^ 19 + 2 * 2 ^ 14 + 3 * 2 ^ 8 + 4 * 2 ^ 4 + 12, .wait none 1 2 3 4 12),
    (word 0x6D 0 2 4 12, .copy none 2 4 12), (word 0x6F 0 2 0 12, .publ none 2 12), (word 0x70 4 2 0 12, .coll none 4 2 12)] : List (Nat × Instr)),
    decodeTableWord 32 p.1 = some p.2 := by decide

theorem test_decode_control : ∀ p ∈ ([(word 0x71 0 2 0 12, .mload none 2 12), (word 0x72 0 2 1 12, .amodeCompute none 2 12),
    (word 0x75 0 2 0 12, .acc none 2 12), (0x76 * 2 ^ 25 + 0x1FFFFF * 2 ^ 4 + 3, .bra 0x1FFFFF 3), (word 0x77 0 2 0 12, .brx 2 12),
    (0x78 * 2 ^ 25 + 5 * 2 ^ 4 + 12, .call 5 12), (word 0x79 0 0 0 12, .ret 12), (word 0x7A 0 0 0 12, .exit 12), (0xF600002C, .win none 2 12),
    (0x7B * 2 ^ 25 + 2 ^ 18 + 3 * 2 ^ 4 + 12, .winAbs none 3 12), (word 0x7C 16 2 0 12, .leaseSpill none 16 2 12)] : List (Nat × Instr)),
    decodeTableWord 32 p.1 = some p.2 := by decide

theorem test_decode_system : ∀ p ∈ ([(word 0x7D 0 0 0 12, .sysNop none 12), (word 0x7D 0 3 1 12, .sysTrap none 3 12), (0xFA00006C, .sysElect none 0 12),
    (word 0x7D 2 4 8 12, .sysTlbinv none 2 4 12), (word 0x7D 4 0 9 12, .sysRdtime none 4 12), (word 0x7D 3 4 12 12, .sysMstat none 3 4 12)]
    : List (Nat × Instr)), decodeTableWord 32 p.1 = some p.2 := by decide

/-- Reserved and illegal words (R50 to R58, R60) are refused. -/
theorem test_decode_refused : ∀ p ∈ ([0, word 0x7D 0 0 13 12, word 0x30 7 4 15 12, word 0x42 (6 * 16 + 1) 1 2 12, word 0x42 6 1 2 12,
    word 0x08 3 2 6 12, word 0x1E 3 1 32 12, word 0x3B 6 7 0x08 12, word 0x56 4 2 (7 * 16) 12, word 0x5F 0 0 (3 * 8) 12, word 0x62 3 2 (9 * 8) 12,
    word 0x5B 4 2 (3 * 8 + 1) 12, word 0x54 3 0 13 12, word 0x79 1 0 0 12] : List Nat), decodeTableWord 32 p = none := by decide

/-- The reasons of R60: major 0, an unlisted code, a must-be-zero field, a reserved value, an odd pair. -/
theorem test_decode_reasons : ∀ p ∈ ([(0, 1), (word 0x7D 0 0 13 12, 2), (word 0x79 1 0 0 12, 3), (word 0x42 6 1 2 12, 4), (word 0x08 3 2 6 12, 5)]
    : List (Nat × Nat)), (match decode (wordBytes (BitVec.ofNat 32 p.1)) with | .error (.illegal n) => n == p.2 | _ => false) = true := by decide

/-! ## WellFormed refuses each kind of ill-formed term -/

def px (m r c : Nat) (mz : Bool) (rows : Nat) : Option Pfx :=
  some { mask := BitVec.ofNat 4 m, rnd := BitVec.ofNat 3 r, c := BitVec.ofNat 7 c, mz := mz, cnt := 0, rows := BitVec.ofNat 2 rows, cols := 0, strict := false }

/-- A reserved mask, a reserved rounding mode, a rounding mode, a fourth operand, a block and a zeroing mask where none is taken. -/
theorem test_wf_prefix : ∀ i ∈ ([.iadd (px 13 0 0 false 0) 3 1 2 12, .fadd (px 12 6 0 false 0) 3 1 2 12, .iadd (px 12 1 0 false 0) 3 1 2 12,
    .iadd (px 12 0 9 false 0) 3 1 2 12, .ld (px 12 0 0 false 1) 4 2 4 0 12, .st (px 0 0 0 true 0) 4 0 2 4 12] : List Instr), i.wf = false := by decide

/-- An odd pair, a misaligned quad, and a reserved value of each kind of field. -/
theorem test_wf_fields : ∀ i ∈ ([.iadd64 none 3 2 6 12, .ld none 6 2 6 0 12, .shli none 3 1 32 12, .icmp none 6 0 1 2 12, .icmp none 0 6 1 2 12,
    .pand none 0 12 0 12, .ld none 4 2 7 0 12, .lda none 4 2 4 5 12, .st none 1 0 2 4 12, .atom none 4 2 15 0 12, .atom64 none 4 2 10 0 12,
    .red none 4 2 8 0 12, .rcn none 4 2 9 2 12, .rcn none 4 2 3 1 12, .fence none 3 0 12, .cvt none 6 7 0 0 8 12, .rdsys none 3 13 12,
    .wrsys none 3 0 12, .lrots none 3 1 0 4 12] : List Instr), i.wf = false := by decide

/-- An event has no encoding. -/
theorem test_wf_events : ∀ i ∈ ([.powerOn, .wake 0, .copyStart 0] : List Instr), i.wf = false := by decide

theorem test_wf_good : ∀ i ∈ ([.iadd none 3 1 2 12, .iadd64 none 4 2 6 12, .fadd (px 12 5 0 false 3) 3 1 2 12, .imad (px 3 0 30 true 0) 3 1 2 15,
    .ld none 4 2 6 3 12, .lda none 4 2 4 4 12] : List Instr), i.wf = true := by decide

/-! ## Witnesses: one issue of crew 0 on core 0, with registers, forms, memory and handler as a small state sets them -/

def nexts (o : Host.Outcome State Fault Refusal) : Bool := match o with | .next _ => true | _ => false

def u0 : Issue := { crew := 0, pc := 0x1000, lanes := 0xFFFFFFFF#32, before := [], slot := 0 }

/-- An issue of the placed crew is taken up; its region's handler is at 0x2000. -/
def s0 : State := (State.reset.placed 0).take u0 []

def withReg (s : State) (r : Nat) (f : Nat → Word) : State :=
  s.modCrew 0 (fun c => (List.range 32).foldl (fun c l => c.writeReg r l (f l) 0) c)

/-- x2:x3 holds 0x20000 + 16·lane in every lane. -/
def sM : State := withReg s0 2 (fun l => BitVec.ofNat 32 (0x20000 + 16 * l))

def inHandler (s : State) : State :=
  s.modCrew 0 (fun c => { c with handler := true, trapCode := 16, trapPc := 0x1000, trapLanes := some 0xFFFFFFFF#32, frame := c.threads, trapEntry := some 3 })

/-- No lane is active: the guard p0 is false everywhere. -/
abbrev off : BitVec 4 := 0

theorem test_w_memory : (Memory.wf State.reset.hbm = true ∧ Memory.wf State.reset.hostMem = true) ∧ nexts (step State.reset) = true := by
  decide +kernel

def sF : State := State.reset.withFetchWord 32 (word 0x01 3 1 2 12)
def uF : Issue := sF.turn.headD u0

theorem test_w_step : sF.runs = true ∧ sF.turn = uF :: [] ∧ (sF.take uF []).stands uF = true ∧
    (sF.take uF []).fetch uF.crew uF.pc.toNat = .instr (.iadd none 3 1 2 12) := by decide +kernel

def tgF : Target := { place := .hbm 0 0x1000, key := 1, level := 2 }

theorem test_w_step_bytes : isNear uF.pc.toNat = false ∧
    (sF.take uF []).translate (crewSett uF.crew) ((sF.take uF []).crew uF.crew).core uF.pc.toNat 4 .fetch = .ok tgF ∧
    Tab.get none (sF.take uF []).codeOld (hbmAddr 0 0x1000 / 4) = none ∧
    (decode (wordBytes (BitVec.ofNat 32 ((sF.take uF []).memRead tgF 4).1))).toOption = some (.iadd none 3 1 2 12, []) := by decide +kernel

theorem test_w_trap : MayTrap 0 sM ∧ ¬ MayTrap 0 (inHandler sM) := by decide +kernel

/-- An illegal field, a block beyond x127, a register beyond the allocation, a released source, a source in flight. -/
theorem test_w_issue_illegal : sM.cur = some u0 ∧ MayTrap 0 sM ∧ (info (.ld none 4 2 7 0 12)).enc = true ∧
    sM.illegalIn 0 (.ld none 4 2 7 0 12) = some 4 ∧ sM.illegalIn 0 (.sysTret none 12) = some 4 := by decide +kernel

def blockPx (rows : Nat) : Option Pfx :=
  some { mask := 12, rnd := 0, c := 0, mz := false, cnt := 0, rows := BitVec.ofNat 2 rows, cols := 0, strict := false }

theorem test_w_issue_extent : let i : Instr := .iadd (blockPx 3) 126 1 2 12
    plain i = true ∧ illegalOf i = none ∧ (sM.crew 0).held_ i u0.lanes = false ∧ (info i).extentBad = true := by decide +kernel

def sSmall : State := sM.modCrew 0 (fun c => { c with nregs := 16 })

theorem test_w_issue_alloc : let i : Instr := .iadd none 20 1 2 12
    plain i = true ∧ sSmall.cur = some u0 ∧ illegalOf i = none ∧ (sSmall.crew 0).held_ i u0.lanes = false ∧ MayTrap 0 sSmall ∧
    (info i).extentBad = false ∧ (sSmall.crew 0).allocBad (info i) = true := by decide +kernel

def sDead : State := sM.modCrew 0 (fun c => c.setSlot 1 5 { rel := true })

theorem test_w_issue_dead : let i : Instr := .iadd none 20 1 2 12
    plain i = true ∧ sDead.cur = some u0 ∧ illegalOf i = none ∧ (sDead.crew 0).held_ i u0.lanes = false ∧ MayTrap 0 sDead ∧
    (info i).extentBad = false ∧ (sDead.crew 0).allocBad (info i) = false ∧
    (sDead.crew 0).deadLanes i u0.lanes ++ (sDead.crew 0).deadSources i u0 ≠ [] := by decide +kernel

/-- The loads counter is at its end (R29). -/
def sHeld : State := sM.modCrew 0 (fun c => { c with loads := 63 })

theorem test_w_issue_held : let i : Instr := .ld none 4 2 4 0 12
    plain i = true ∧ sHeld.cur = some u0 ∧ illegalOf i = none ∧ (sHeld.crew 0).held_ i u0.lanes = true := by decide +kernel

def dT : Deferred := { code := 14, pc := 0x1000, info := 0, entry := none, due := 0 }
def sDef : State := sM.modCrew 0 (fun c => { c with deferred := [dT] })

theorem test_w_deferred : (sDef.crew 0).deferred = [dT] ∧ (sDef.crew 0).live = true ∧ MayTrap 0 sDef := by decide +kernel
theorem test_w_deferred_handler : ((inHandler sDef).crew 0).deferred = [dT] ∧ ((inHandler sDef).crew 0).live = true ∧
    ((inHandler sDef).crew 0).handler = true := by decide +kernel
theorem test_w_tret : Runs (.sysTret none 12) u0 (inHandler sM) ∧ ((inHandler sM).crew 0).handler = true ∧
    ((inHandler sM).crew 0).active (.sysTret none 12) u0.lanes ≠ [] := by decide +kernel
theorem test_w_tret_outside : sM.cur = some u0 ∧ illegalOf (.sysTret none 12) = none ∧ (sM.crew 0).handler = false ∧ MayTrap 0 sM := by decide +kernel

theorem test_w_program_traps : MayTrap 0 sM ∧ Runs (.sysTrap none 2 12) u0 sM ∧ Runs (.sysTrap none 2 off) u0 sM ∧
    (sM.crew 0).active (.sysTrap none 2 12) u0.lanes ≠ [] ∧ (sM.crew 0).active (.sysTrap none 2 off) u0.lanes = [] ∧
    Runs (.sysBkpt none 12) u0 sM ∧ Runs (.sysBkpt none off) u0 sM ∧ (sM.crew 0).active (.sysBkpt none 12) u0.lanes ≠ [] ∧
    (sM.crew 0).active (.sysBkpt none off) u0.lanes = [] := by decide +kernel

theorem test_w_xtop : Runs (.xtop none 2 12) u0 sM ∧ Runs (.ptox none 3 12) u0 sM ∧ (sM.crew 0).composes (.ptox none 3 12) u0.lanes = none := by
  decide +kernel

theorem test_w_wrsys : Runs (.wrsys none 2 5 12) u0 sM ∧ Runs (.wrsys none 2 9 12) u0 (inHandler sM) ∧ Runs (.wrsys none 2 12 off) u0 (inHandler sM) ∧
    sM.cur = some u0 ∧ illegalOf (.wrsys none 2 10 12) = none ∧ (sM.crew 0).handler = false ∧ MayTrap 0 sM := by decide +kernel

theorem test_w_branches : Runs (.bra 0x1FFFFF 12) u0 sM ∧ Runs (.call 5 12) u0 sM ∧ Runs (.brx 2 12) u0 sM ∧
    (∀ l ∈ (sM.crew 0).active (.brx 2 12) u0.lanes, (sM.crew 0).laneAddr (.brx 2 12) l % 4 = 0) ∧ Runs (.ret 12) u0 sM ∧
    (∀ l ∈ (sM.crew 0).active (.ret 12) u0.lanes, (sM.crew 0).laneAddr (.ret 12) l % 4 = 0) := by decide +kernel

def sOdd : State := withReg (withReg s0 2 (fun l => BitVec.ofNat 32 l)) 126 (fun l => BitVec.ofNat 32 l)

theorem test_w_branches_odd : Runs (.brx 2 12) u0 sOdd ∧ MayTrap 0 sOdd ∧
    (∃ l ∈ (sOdd.crew 0).active (.brx 2 12) u0.lanes, (sOdd.crew 0).laneAddr (.brx 2 12) l % 4 ≠ 0) ∧ Runs (.ret 12) u0 sOdd ∧
    (∃ l ∈ (sOdd.crew 0).active (.ret 12) u0.lanes, (sOdd.crew 0).laneAddr (.ret 12) l % 4 ≠ 0) := by decide +kernel

theorem test_w_threads : ∀ i ∈ ([.exit 12, .sysNop none 12, .sysConv none 12, .sysYield none 12, .sysSleep none 2 12] : List Instr),
    Runs i u0 sM ∧ (sM.crew 0).active i u0.lanes ≠ [] := by decide +kernel

/-- WIN to 0, to the last base of the allocation, one beyond it, and below 0. -/
theorem test_w_window : Runs (.win none 7 12) u0 sM ∧ Runs (.win none 7 off) u0 sM ∧ Runs (.winAbs none 8 12) u0 sM ∧ Runs (.win none 0x3FFF 12) u0 sM ∧
    (sM.crew 0).active (.win none 7 12) u0.lanes ≠ [] ∧ (sM.crew 0).active (.win none 7 off) u0.lanes = [] ∧
    (0 ≤ (sM.crew 0).wb + (7 : BitVec 14).toInt ∧ (sM.crew 0).wb + (7 : BitVec 14).toInt < ((sM.crew 0).nregs / 16 : Nat)) ∧
    ¬ (0 ≤ (8 : BitVec 14).toInt ∧ (8 : BitVec 14).toInt < ((sM.crew 0).nregs / 16 : Nat)) ∧
    ¬ (0 ≤ (sM.crew 0).wb + (0x3FFF : BitVec 14).toInt) ∧ MayTrap 0 sM := by decide +kernel

def sBusy : State := sM.modCrew 0 (fun c => { c with loads := 3, tiles := 1 })

theorem test_w_wait : Runs (.wait none 2 31 63 15 12) u0 sBusy ∧ Runs (.wait none 3 0 0 1 12) u0 sBusy ∧ Runs (.wait none 2 0 0 0 off) u0 sBusy ∧
    ¬ ((sBusy.crew 0).loads ≤ 2) ∧ ((sBusy.crew 0).loads ≤ 3 ∧ (sBusy.crew 0).stores ≤ 0 ∧ (sBusy.crew 0).copies ≤ 0 ∧ (sBusy.crew 0).tiles ≤ 1) ∧
    (sBusy.crew 0).active (.wait none 2 0 0 0 off) u0.lanes = [] ∧ (sBusy.crew 0).active (.wait none 2 31 63 15 12) u0.lanes ≠ [] := by decide +kernel

theorem test_w_counted : let i : Instr := .iaddi none 20 2 1 12
    Runs i u0 sM ∧ (sM.crew 0).composes i u0.lanes = none ∧ (info i).rows = 1 ∧ (info i).cols = 1 := by decide +kernel

def pxc (c : Nat) : Option Pfx :=
  some { mask := 12, rnd := 0, c := BitVec.ofNat 7 c, mz := false, cnt := 0, rows := 0, cols := 0, strict := false }

/-- 2·σ + 3 of symbol 5 in every lane. -/
def form5 : Form := { reg := 8, sym := 5, kind := 0, rnd := 0, avail := 0,
                      lanes := (List.range 32).map (fun _ => { scale := 2, offset := 3, held := false }) }

/-- x8 holds that form. -/
def sForm : State := sM.modCrew 0 (fun c => { c with forms := [form5], syms := [{ num := 5, req := 9, mask := 0xFFFFFFFF#32 }] })

theorem test_w_compose : ∀ i ∈ ([.mov none 9 8 12, .iadd none 9 8 2 12, .isub none 9 8 2 12, .imul none 9 8 2 12, .imad (pxc 2) 9 8 4 12,
    .iaddi none 9 8 5 12, .imuli none 9 8 5 12, .shli none 9 8 3 12] : List Instr),
    Runs i u0 sForm ∧ ((sForm.crew 0).composes i u0.lanes).isSome = true := by decide +kernel

/-- A directory entry as R362's worked example has it (spec/16). -/
theorem test_directory_word : ({ sst := [1, 0, 0, 0], ptrs := [130, 260] } : DirEntry).word 0x1234567 =
    0x00001234567012000000000000041082 := by decide +kernel

/-! ## Witnesses: every instruction that gives a value runs -/

theorem test_w_integer_a : ∀ i ∈ ([
    .iadd none 20 2 6 12, .isub none 20 2 6 12, .iaddi none 20 2 127 12, .imul none 20 2 6 12, .imulh none 20 2 6 12, .imulhn none 20 2 6 12,
    .imad none 20 2 6 12, .imin none 20 2 6 12, .imax none 20 2 6 12, .nmin none 20 2 6 12, .nmax none 20 2 6 12, .imuli none 20 2 127 12,
    .iadds none 20 2 6 12, .nadds none 20 2 6 12, .isubs none 20 2 6 12, .iadd64 none 20 2 6 12, .isub64 none 20 2 6 12,
    .imulw none 20 2 6 12, .nmulw none 20 2 6 12, .extIabs none 20 2 12, .extIneg none 20 2 12, .extNot none 20 2 12, .extSext8 none 20 2 12,
    .extSext16 none 20 2 12, .extZext8 none 20 2 12, .extZext16 none 20 2 12] : List Instr),
    Runs i u0 sM ∧ (sM.crew 0).composes i u0.lanes = none := by decide +kernel

theorem test_w_integer_b : ∀ i ∈ ([
    .extFfs none 20 2 12] : List Instr),
    Runs i u0 sM ∧ (sM.crew 0).composes i u0.lanes = none := by decide +kernel

theorem test_w_logic : ∀ i ∈ ([
    .and none 20 2 6 12, .or none 20 2 6 12, .xor none 20 2 6 12, .andn none 20 2 6 12, .andi none 20 2 127 12, .ori none 20 2 127 12,
    .xori none 20 2 127 12, .shl none 20 2 6 12, .shr none 20 2 6 12, .sar none 20 2 6 12, .shli none 20 2 9 12, .shri none 20 2 9 12,
    .sari none 20 2 9 12, .popc none 20 2 12, .clz none 20 2 12, .brev none 20 2 12, .fshl none 20 2 6 12, .fshr none 20 2 6 12,
    .bfxs none 20 2 6 12, .bfxn none 20 2 6 12, .bfi none 20 2 6 12, .bmix none 20 2 6 12] : List Instr),
    Runs i u0 sM ∧ (sM.crew 0).composes i u0.lanes = none := by decide +kernel

theorem test_w_float : ∀ i ∈ ([
    .fadd none 20 2 6 12, .fsub none 20 2 6 12, .fmul none 20 2 6 12, .ffma none 20 2 6 12, .fmin none 20 2 6 12, .fmax none 20 2 6 12,
    .fsfRcp none 20 2 12, .fsfRsq none 20 2 12, .fsfSqrt none 20 2 12, .fsfExp2 none 20 2 12, .fsfLog2 none 20 2 12, .fsfSinpi none 20 2 12,
    .fsfCospi none 20 2 12, .fsfTanh none 20 2 12, .fsfAbs none 20 2 12, .fsfNeg none 20 2 12, .fsfFract none 20 2 12,
    .fsfFloor none 20 2 12, .fsfCeil none 20 2 12, .fsfTrunc none 20 2 12, .fsfRint none 20 2 12] : List Instr),
    Runs i u0 sM ∧ (sM.crew 0).composes i u0.lanes = none := by decide +kernel

theorem test_w_packed_a : ∀ i ∈ ([
    .badd2 none 20 2 6 12, .bmul2 none 20 2 6 12, .bfma2 none 20 2 6 12, .hadd2 none 20 2 6 12, .hmul2 none 20 2 6 12, .hfma2 none 20 2 6 12,
    .dot4i none 20 2 6 12, .dot2b none 20 2 6 12, .dot4e4 none 20 2 6 12, .dot4e5 none 20 2 6 12, .dsdot4 none 20 2 6 12,
    .cvt none 20 2 0 0 3 12, .cvt none 20 2 1 0 3 12, .cvtmx none 20 2 3 1 12, .qmx none 20 2 3 1 12, .mxsclE4m3 none 20 2 12,
    .mxsclE5m2 none 20 2 12, .mxsclE2m3 none 20 2 12, .mxsclE3m2 none 20 2 12, .mxsclE2m1 none 20 2 12, .mxsclMxint8 none 20 2 12,
    .dsmul none 20 2 6 12, .dscvtFromf32 none 20 2 2 12, .dscvtTof32 none 20 2 2 12, .dscvtFromi32 none 20 2 2 12,
    .dscvtToi32 none 20 2 2 12] : List Instr),
    Runs i u0 sM ∧ (sM.crew 0).composes i u0.lanes = none := by decide +kernel

theorem test_w_packed_b : ∀ i ∈ ([
    .dscvtCanon none 20 2 12] : List Instr),
    Runs i u0 sM ∧ (sM.crew 0).composes i u0.lanes = none := by decide +kernel

theorem test_w_moves : ∀ i ∈ ([
    .mov none 20 2 12, .movi none 20 0x2ABC 12, .ldi none 20 12 0xDEADBEEF, .lxor none 20 2 9 12, .lget none 20 2 6 12, .lrot none 20 2 9 12,
    .lrots none 20 2 1 3 12, .sel none 20 2 6 12, .consMask none 20 3 12, .consPeers none 20 2 12, .consCount none 20 3 12,
    .consFirst none 20 3 12, .rdsys none 20 1 12, .sysRdtime none 20 12, .sysMstat none 20 2 12] : List Instr),
    Runs i u0 sM ∧ (sM.crew 0).composes i u0.lanes = none := by decide +kernel

theorem test_w_pairs : ∀ i ∈ ([
    .icmp none 2 2 2 6 12, .ncmp none 2 2 2 6 12, .fcmp none 2 2 2 6 12, .icmpi none 2 2 2 127 12, .pand none 2 3 10 12, .por none 2 3 10 12,
    .pxor none 2 3 10 12, .consNone none 2 3 12, .consEvery none 2 3 12, .consSame none 2 2 12, .sysElect none 2 12] : List Instr),
    Runs i u0 sM := by decide +kernel

/-! ## Witnesses: memory, barriers, copies, collectives, leases -/

/-- A path of two lanes. -/
def u1 : Issue := { u0 with lanes := 3#32 }
def sL : State := { sM with cur := some u1 }

abbrev targetsOk (r : Resolved) : Bool := match r with | .ok _ => true | .stop _ => false

/-- `i` runs, some lane is active, and every active lane's bytes translate. -/
abbrev EntersAt (i : Instr) (n : Nat) (acc : Access) (bad : Nat → Target → Bool) (s : State) : Prop :=
  RunsMem i (s.memTrap i n acc bad) u1 s ∧ (s.crew 0).active i u1.lanes ≠ [] ∧ targetsOk (s.resolveLanes u1 (laneAddrs i u1 s) n acc) = true

theorem test_w_loads : EntersAt (.lda none 4 2 6 4 12) 16 .read (fun _ _ => false) sL ∧ EntersAt (.ldk none 4 2 0 12) 4 .read (fun _ _ => false) sL ∧
    EntersAt (.ld none 4 2 5 0 12) 8 .read (fun _ _ => false) sL ∧
    (sL.crew 0).defers (.ld none 4 2 5 0 12) ((sL.crew 0).active (.ld none 4 2 5 0 12) u1.lanes) 5 = false := by decide +kernel

theorem test_w_load_inactive : RunsMem (.ld none 4 2 4 0 off) (sL.memTrap (.ld none 4 2 4 0 off) 4 .read (fun _ _ => false)) u1 sL ∧
    (sL.crew 0).active (.ld none 4 2 4 0 off) u1.lanes = [] := by decide +kernel

theorem test_w_load_defers : EntersAt (.ld none 4 2 4 0 12) 4 .read (fun _ _ => false) sL ∧
    (sL.crew 0).defers (.ld none 4 2 4 0 12) ((sL.crew 0).active (.ld none 4 2 4 0 12) u1.lanes) 4 = true ∧
    sL.spaceAhead 0 4 (((sL.crew 0).active (.ld none 4 2 4 0 12) u1.lanes).map ((sL.crew 0).laneAddr (.ld none 4 2 4 0 12))) = false := by
  decide +kernel

theorem test_w_stores : (sL.crew 0).egress = [] ∧ (sL.crew 0).form ((sL.crew 0).win 6) = none ∧ sizeRegs 4 = 1 ∧
    EntersAt (.st none 4 0 2 6 12) 4 .write (narrowKs 4) sL ∧ EntersAt (.stl none 6 4 2 8 12) 16 .write (narrowKs 16) sL := by decide +kernel

/-- Lane l's address is 0x20000 + l. -/
def sMis : State := withReg sL 2 (fun l => BitVec.ofNat 32 (0x20000 + l))

theorem test_w_misaligned : ∀ i ∈ ([.ld none 4 2 4 0 12, .st none 4 0 2 6 12] : List Instr), MayTrap 0 sMis ∧ Runs i u1 sMis ∧
    sMis.memHeld 0 i u1.lanes = false ∧ ((sMis.crew 0).active i u1.lanes).filter (fun l => (sMis.crew 0).laneAddr i l % sizeBytes 4 != 0) ≠ [] := by
  decide +kernel

theorem test_w_atomics : EntersAt (.atom none 4 2 9 4 12) 4 .atomic (sL.noAtomic 9) sL ∧ EntersAt (.atomr none 4 2 0 2 12) 4 .atomic (sL.noAtomic 0) sL ∧
    EntersAt (.red none 6 2 5 1 12) 4 .atomic (sL.noAtomic 5) sL ∧ EntersAt (.atom64 none 4 2 8 3 12) 8 .atomic (sL.noAtomic 8) sL := by decide +kernel

/-- As sM, on a page of keep-siblings words. -/
def sKs : State := sL.modCore 0 (fun g => { g with tlb := [entryFor 0 { codeLeaf with ks := true }] })

theorem test_w_reconciles : EntersAt (.rcn none 4 2 3 2 12) 4 .atomic noReconcile sKs ∧ EntersAt (.rcnx none 4 2 8 3 12) 4 .atomic noReconcile sKs ∧
    EntersAt (.rcn none 4 2 0 2 12) 4 .atomic noReconcile sL := by decide +kernel

/-- The block declares 4 KiB of scratchpad; x4:x5 holds its address 16·lane, and x6:x7 the same through a core without a block. -/
def sPad : State :=
  let s := sL.modBlock 0 (fun b => { b with scratch := 4096 })
  let s := withReg (withReg s 4 (fun l => BitVec.ofNat 32 (0x200000 + 16 * l))) 5 (fun _ => 0x00FFFF00#32)
  withReg (withReg s 6 (fun l => BitVec.ofNat 32 (0xA00000 + 16 * l))) 7 (fun _ => 0x00FFFF00#32)

theorem test_w_deque : EntersAt (.dqpush none 4 2 12) 16 .atomic (sPad.noDeque 0) sPad ∧ EntersAt (.dqpop none 8 4 12) 16 .atomic (sPad.noDeque 0) sPad ∧
    EntersAt (.dqsteal none 8 4 12) 16 .atomic (sPad.noDeque 0) sPad := by decide +kernel

theorem test_w_barriers : ∀ i ∈ ([.binit none 4 2 12, .arv none 4 1 1 12, .arv none 4 0 0 12, .bexp none 4 2 12] : List Instr),
    RunsMem i (sPad.memTrap i 16 .write (sPad.noObject 0)) u1 sPad ∧ (sPad.crew 0).active i u1.lanes ≠ [] ∧
    ∀ l ∈ (sPad.crew 0).active i u1.lanes, sPad.objectAt 0 ((sPad.crew 0).laneAddr i l) ≠ some none := by decide +kernel

theorem test_w_barriers_gap : ∀ i ∈ ([.binit none 6 2 12, .arv none 6 0 0 12, .bexp none 6 2 12] : List Instr),
    RunsMem i (sPad.memTrap i 16 .write (sPad.noObject 0)) u1 sPad ∧ (sPad.crew 0).active i u1.lanes ≠ [] ∧
    ∀ l ∈ (sPad.crew 0).active i u1.lanes, sPad.objectAt 0 ((sPad.crew 0).laneAddr i l) = some none := by decide +kernel

/-- A barrier of zeros is in phase 0: phase 0 has not ended, and phase 0xFFFF, the phase before, has. x10 holds 0xFFFF and x11 a past
deadline. -/
def sWait : State := withReg (withReg sPad 10 (fun _ => 0xFFFF#32)) 11 (fun _ => 0)

theorem test_w_waits : RunsMem (.waitp none 3 4 8 12) (sWait.memTrap (.waitp none 3 4 8 12) 16 .read (sWait.noObject 0)) u1 sWait ∧
    sWait.seen 0 ((sWait.crew 0).laneAddr (.waitp none 3 4 8 12) 1) 0 = .wait ∧
    RunsMem (.tryw none 3 4 10 12) (sWait.memTrap (.tryw none 3 4 10 12) 16 .read (sWait.noObject 0)) u1 sWait ∧
    sWait.seen 0 ((sWait.crew 0).laneAddr (.tryw none 3 4 10 12) 1) 0xFFFF = .ended true ∧ sWait.passed 0 0 = true ∧
    RunsMem (.waitp none 3 6 8 12) (sWait.memTrap (.waitp none 3 6 8 12) 16 .read (sWait.noObject 0)) u1 sWait ∧
    sWait.seen 0 ((sWait.crew 0).laneAddr (.waitp none 3 6 8 12) 1) 0 = .gap := by decide +kernel

/-- The line of lane 0 is in core 0's L1. -/
def sLine : State := sL.modCore 0 (fun g => { g with l1 := [{ line := 0x20000 / 128, words := [(0, some 7)] }] })

theorem test_w_caches : ∀ i ∈ ([.cctlInv none 2 12, .cctlInvall none 12, .cctlDemote none 2 12, .cctlEvict none 2 12, .pref none 2 3 12,
    .pref none 2 0 12, .fence none 0 4 12, .fence none 2 0 off] : List Instr), RunsMem i (fun _ => none) u1 sLine := by decide +kernel

theorem test_w_evict : (sLine.linesOf (.cctlEvict none 2 12) u1).filter (fun n => ((sLine.core 0).line n.2.1).isSome) ≠ [] ∧
    (sL.linesOf (.cctlEvict none 2 12) u1).filter (fun n => ((sL.core 0).line n.2.1).isSome) = [] ∧
    RunsMem (.cctlEvict none 2 12) (fun _ => none) u1 sL := by decide +kernel

theorem test_w_pref : ∀ y ∈ laneAddrs (.pref none 2 0 12) u1 sL, isNear y.2 = false ∧
    sL.translate 0 0 y.2 1 .read = .ok { place := .hbm 0 y.2, key := 1, level := 2 } := by decide +kernel

/-- x8:x9 holds 0x30000 + 64·lane, where the bytes of `d` stand. -/
def sDesc (d : Nat) : State :=
  let s := withReg sL 8 (fun l => BitVec.ofNat 32 (0x30000 + 64 * l))
  (s.hbmWriteKey 0 0x30000 64 1 d none).hbmWriteKey 0 0x30040 64 1 d none

/-- 64 bytes from 0x40000 to 0x50000, of a kind. -/
def copyDesc (kind : Nat) : Nat := 0x40000 + 0x50000 * 2 ^ 64 + 64 * 2 ^ 128 + 2 ^ 160 + kind * 2 ^ 320

abbrev descOk (r : DescRead) (v : Nat) : Bool := match r with | .ok w _ _ _ => w = v | _ => false

theorem test_w_copy : let s := sDesc (copyDesc 6)
    RunsMem (.copy none 8 10 12) (s.copyTrap (.copy none 8 10 12) false) u1 s ∧ (s.crew 0).active (.copy none 8 10 12) u1.lanes ≠ [] ∧
    ∀ l ∈ (s.crew 0).active (.copy none 8 10 12) u1.lanes, descOk (s.readDesc 0 ((s.crew 0).laneAddr (.copy none 8 10 12) l)) (copyDesc 6) = true := by
  decide +kernel

theorem test_w_put : let s := sDesc (copyDesc 7)
    RunsMem (.put none 8 10 12) (s.copyTrap (.put none 8 10 12) true) u1 s ∧ (s.crew 0).active (.put none 8 10 12) u1.lanes ≠ [] ∧
    ∀ l ∈ (s.crew 0).active (.put none 8 10 12) u1.lanes, descOk (s.readDesc 0 ((s.crew 0).laneAddr (.put none 8 10 12) l)) (copyDesc 7) = true := by
  decide +kernel

def sShadow : State := sL.modCore 0 (fun g => { g with tlb := [entryFor 0 { codeLeaf with sh := true, buf := 3 }] })

theorem test_w_publ : EntersAt (.publ none 2 12) 1 .read noShadow sShadow := by decide +kernel

/-- An all-reduce of four FP32 words in group 0. -/
def collDesc : Nat := 0x40000 * 2 ^ 128 + 0x50000 * 2 ^ 192 + 4 * 2 ^ 256

def sColl : State := (sDesc collDesc).modSett 0 (fun t => { t with groups := [(0, { v := true, attempt := 3, n := 1 })] })

theorem test_w_coll : Runs (.coll none 10 8 12) u1 sColl ∧ sColl.memHeld 0 (.coll none 10 8 12) u1.lanes = false ∧
    (sColl.crew 0).active (.coll none 10 8 12) u1.lanes = [0, 1] ∧
    descOk (sColl.readDesc 0 ((sColl.crew 0).laneAddr (.coll none 10 8 12) 0)) collDesc = true ∧ sColl.badColl 0 collDesc = none := by decide +kernel

theorem test_w_cabort : Runs (.sysCabort none 2 12) u1 sColl := by decide +kernel

theorem test_w_matrix : ∀ i ∈ ([.mload none 8 12, .mmv none 8 12, .mmg none 8 12, .acc none 8 12, .amodeStorage none 8 12, .amodeCompute none 8 12,
    .mload none 8 off, .mmv none 8 off, .mmg none 8 off, .acc none 8 off, .amodeStorage none 8 off, .amodeCompute none 8 off] : List Instr),
    RunsMem i (fun _ => none) u1 (sDesc 0) := by decide +kernel

/-- x10 holds 4. -/
def sLease : State := withReg sL 10 (fun _ => 4)

/-- Registers 16 to 19 are leased, at a place. -/
def leased (at_ : LeaseAt) : State :=
  sLease.modCrew 0 (fun c => c.setLease 1 (some { first := 16, count := 4, place := at_, lender := some 1, revoked := false, slots := [] }))

theorem test_w_spill : let c := sLease.crew 0
    Runs (.leaseSpill none 16 10 12) u1 sLease ∧ sLease.memHeld 0 (.leaseSpill none 16 10 12) u1.lanes = false ∧
    c.active (.leaseSpill none 16 10 12) u1.lanes = [0, 1] ∧ c.leases.length < 4 ∧ (∀ x ∈ c.leases, ∀ y ∈ x.2, y.first ≠ c.win 16) ∧
    (sLease.lenderFor c.core).isSome = true ∧ (c.slot (c.win 10) 0).val.toNat = 4 ∧ c.win 16 + 4 ≤ c.nregs := by decide +kernel

theorem test_w_fill : let s := leased (.lender 1)
    ((s.crew 0).leaseOf ((s.crew 0).win 16) 4).isSome = true ∧ Runs (.leaseFill none 16 10 12) u1 s ∧
    s.memHeld 0 (.leaseFill none 16 10 12) u1.lanes = false ∧ Runs (.leaseDrop none 16 10 12) u1 s ∧
    s.memHeld 0 (.leaseDrop none 16 10 12) u1.lanes = false ∧ (s.crew 0).active (.leaseDrop none 16 10 12) u1.lanes = [0, 1] := by decide +kernel

theorem test_w_lease_events : (((leased .moving).crew 0).lease 1).map Lease.place = some .moving ∧
    (((leased .filling).crew 0).lease 1).map Lease.place = some .filling ∧
    (((leased (.lender 1)).crew 0).lease 1).map (fun y => (y.place, y.lender)) = some (.lender 1, some 1) := by decide +kernel

theorem test_w_post : EntersAt (.sysPost none 8 12) 64 .read (fun _ _ => false) (sDesc 0) := by decide +kernel

theorem test_w_tlbinv : Runs (.sysTlbinv none 4 8 12) u1 (inHandler (sDesc 0)) ∧
    ((inHandler (sDesc 0)).crew 0).active (.sysTlbinv none 4 8 12) u1.lanes ≠ [] ∧ ((inHandler (sDesc 0)).crew 0).handler = true ∧
    (∀ l ∈ ((inHandler (sDesc 0)).crew 0).active (.sysTlbinv none 4 8 12) u1.lanes, ((inHandler (sDesc 0)).crew 0).laneAddr (.sysTlbinv none 4 8 12) l < 2 ^ 56) ∧
    (sDesc 0).cur = some u1 ∧ illegalOf (.sysTlbinv none 2 8 12) = none ∧ ((sDesc 0).crew 0).handler = false ∧ ((sDesc 0).record 0 0).xlate = false ∧ MayTrap 0 (sDesc 0) := by
  decide +kernel

/-! ## Witnesses: events of threads, cores, loads and stores -/

/-- The placed crew between two issues. -/
def sE : State := { sM with cur := none, turn := [] }

def setTh (s : State) (l : Nat) (f : Thread → Thread) : State :=
  s.modCrew 0 (fun c => { c with threads := Tab.set {} c.threads l (f (c.thread l)) })

theorem test_w_promotion : (((setTh sE 5 (fun t => { t with wait := 63 })).crew 0).thread 5).wait = 63 := by decide +kernel

/-- Crew 0 is ready outside the active set; entry 2 holds another crew of the block since cycle 0. -/
def sActive : State :=
  let s := { sE with cycle := 5000 }
  (s.setCrew 1 { s.crew 0 with idx := 1 }).modCore 0 (fun g => { g with active := [(2, some ⟨1, 0⟩)] })

theorem test_w_residency : (sActive.core 0).entry 2 = some ⟨1, 0⟩ ∧ (sActive.crew 1).core = 0 ∧ (sActive.core 0).entryOf 1 = some 2 ∧
    0 + 4096 ≤ sActive.cycle ∧ sActive.readyOutside 0 = [0] := by decide +kernel
theorem test_w_fill_entry : (sActive.core 0).entry 3 = none ∧ Tab.get 0 (sActive.core 0).entryBusy 3 ≤ sActive.cycle ∧ sActive.nextCrew 0 = some 0 := by
  decide +kernel

/-- Lane 5 waits for the end of phase 0xFFFF of a barrier in phase 0, lane 6 for phase 0 with a deadline that is past; lane 7 sleeps. -/
def wOn (phase : Nat) (d : Option Nat) : WaitOn := { obj := nwb + 2 ^ 21, phase := phase, pair := 2, deadline := d, next := 0x1004 }
def sAsleep : State :=
  let s := { sPad with cur := none, turn := [], cycle := 100 }
  setTh (setTh (setTh s 5 (fun t => { t with st := .waiting (wOn 0xFFFF none) })) 6 (fun t => { t with st := .waiting (wOn 0 (some 0)) })) 7
    (fun t => { t with st := .sleeping 90 80 0x1004 })

theorem test_w_wakes : (sAsleep.crew 0).stopped = false ∧ ((sAsleep.crew 0).thread 5).st = .waiting (wOn 0xFFFF none) ∧
    sAsleep.seen 0 (nwb + 2 ^ 21) 0xFFFF = .ended true ∧ ((sAsleep.crew 0).thread 6).st = .waiting (wOn 0 (some 0)) ∧
    sAsleep.passed 0 0 = true ∧ ((sAsleep.crew 0).thread 7).st = .sleeping 90 80 0x1004 ∧ 90 ≤ sAsleep.cycle := by decide +kernel

/-- Core 0 has been idle since cycle 0, for 2^33 cycles. -/
def sIdle (gate : Nat) : State := { sAsleep with cycle := 2 ^ 33 }.modCore 0 (fun g => { g with idleFrom := some 0, gate := gate })

theorem test_w_gates : (2 ^ 12 ≤ (sIdle 0).idleTime 0 ∧ ((sIdle 0).core 0).gate = 0) ∧
    (2 ^ 20 ≤ (sIdle 1).idleTime 0 ∧ ((sIdle 1).core 0).gate ≠ 2 ∧ ((sIdle 1).core 0).copies = [] ∧ ((sIdle 1).core 0).seq = []) ∧
    ((sIdle 3).core 0).gate = 3 ∧ ((sIdle 2).core 0).gate = 2 := by decide +kernel

theorem test_w_thresholds : (sIdle 1).waitingGangs 0 = [(0, nwb + 2 ^ 21, 0xFFFF)] ∧ crewSett 0 = coreSett 0 ∧
    2 ^ ((sIdle 1).record 0 0).th1 ≤ (sIdle 1).idleTime 0 ∧ 2 ^ ((sIdle 1).record 0 0).th2 ≤ (sIdle 1).idleTime 0 ∧
    (0, 1) ∉ ((sIdle 1).core 0).reported ∧ (0, 2) ∉ ((sIdle 1).core 0).reported := by decide +kernel

/-- A request of crew 0 with one lane. -/
def req1 (kind : ReqKind) (x : LaneReq) : Req := { kind := kind, crew := 0, pc := 0x1000, size := 4, zfield := 4, dst := 20, width := 1, cnt := 0, lanes := [x], issued := 0 }
def withReq (r : Req) : State := { sE with cycle := 100, nextId := 8 }.modCrew 0 (fun c => { c with loads := 1, stores := 1, inFlight := [20] }) |>.setReq 7 (some r)

def atHbm (a : Nat) : Target := { place := .hbm 0 a, key := 1 }
def arrived : LaneReq := { lane := 3, va := 0x20030, target := some (atHbm 0x20030), value := 0x1234, done := true, back := true, out := true, free := true, due := 90 }

theorem test_w_load_end : (withReq (req1 .load arrived)).req 7 = some (req1 .load arrived) ∧
    (∀ x ∈ (req1 .load arrived).lanes, x.done = true ∧ x.due ≤ (withReq (req1 .load arrived)).cycle ∧ x.lane < 32) ∧
    (withReq (req1 .load arrived)).readsPoison (req1 .load arrived) = none := by decide +kernel

/-- The load of symbol 5 has its data, and x8 is 2·σ + 3 of it. -/
def symReq : Req := { req1 .load arrived with sym := some 5 }
def sSym : State := (withReq symReq).modCrew 0 (fun c => { c with forms := [form5], syms := [{ num := 5, req := 7, mask := 8#32 }] })

theorem test_w_resolve : (sSym.crew 0).syms.find? (fun z => z.num = 5) = some { num := 5, req := 7, mask := 8#32 } ∧ sSym.req 7 = some symReq ∧
    symReq.lanes.all LaneReq.back = true ∧ sSym.readsPoison symReq = none ∧ (sSym.crew 0).egress = [] ∧ ((sSym.crew 0).forms.map Form.reg).Nodup ∧
    (sSym.crew 0).threads.any (fun p => p.2.st != .exited) = true ∧ form5 ∈ (sSym.crew 0).forms := by decide +kernel

/-- The same symbol in the cycle after it has resolved. -/
def sSymEnd : State := sSym.modCrew 0 (fun c => { c with syms := [{ num := 5, req := 7, mask := 8#32, resolved := true }] })

theorem test_w_resolve_forms : (sSymEnd.crew 0).syms.find? (fun z => z.num = 5) = some { num := 5, req := 7, mask := 8#32, resolved := true } ∧
    sSymEnd.req 7 = some symReq ∧ ((sSymEnd.crew 0).forms.map Form.reg).Nodup ∧ form5 ∈ (sSymEnd.crew 0).forms ∧ form5.avail ≤ sSymEnd.cycle := by
  decide +kernel

/-- A store on its way: to the own sett's HBM, before and after its clearance, and to host memory. -/
def going (tg : Target) (free : Bool) : LaneReq := { lane := 3, va := 0x20030, target := some tg, data := 0xCAFE, out := true, free := free, due := 90 }
def sStore (tg : Target) (free : Bool) : State := withReq (req1 .store (going tg free))

theorem test_w_store : (sStore (atHbm 0x20030) false).req 7 = some (req1 .store (going (atHbm 0x20030) false)) ∧ isNear 0x20030 = false ∧
    crewSett 0 = 0 ∧ (sStore (atHbm 0x20030) true).depsMet (req1 .store (going (atHbm 0x20030) true)) = true ∧
    (sStore (atHbm 0x20030) true).lateKind (req1 .store (going (atHbm 0x20030) true)) (atHbm 0x20030) = none ∧
    ((sStore (atHbm 0x20030) true).sett 0).inFaultBuffer 0x20030 = false ∧ inContext 0x20030 = false ∧
    (∀ y ∈ sectorsIn 0 0x20030 4, (sStore (atHbm 0x20030) true).sectorState y = 0) ∧
    (sStore { place := .host 0x500 } true).depsMet (req1 .store (going { place := .host 0x500 } true)) = true := by decide +kernel

/-! ## Witnesses: barriers, atomics, deques, copies, collectives, cells -/

/-- The placed crew with a scratchpad, between two issues; a request of it with one lane. -/
def sP : State := { sPad with cur := none, turn := [], cycle := 100, nextId := 8 }
def withPad (r : Req) : State := (sP.modCrew 0 (fun c => { c with loads := 1, stores := 1 })).setReq 7 (some r)
def padLane (data : Nat) : LaneReq :=
  { lane := 3, va := nwb + 2 ^ 21 + 48, target := some { place := .pad 0 48 }, data := data, out := true, free := true, due := 90 }

theorem test_w_barrier_update : ∀ r ∈ ([req1 .binit (padLane 3), req1 (.arv false) (padLane 0), req1 .bexp (padLane 64)] : List Req),
    (withPad r).req 7 = some r ∧ (withPad r).depsMet r = true ∧ (withPad r).objectAt 0 (nwb + 2 ^ 21 + 48) = some (some (0, 48)) := by decide +kernel

/-- An atomic, a reduction and a reconcile that stand at their word; the word of a keep-siblings page too. -/
def word7 (ks : Bool) : LaneReq := { going { atHbm 0x20030 with ks := ks } true with data := 5 }

theorem test_w_atomic_step : ∀ r ∈ ([req1 (.atom 9 false true false) (word7 false), req1 (.atom 0 false false false) (word7 false),
      req1 (.rcn 3 false) (word7 false), req1 (.rcn 3 false) (word7 true)] : List Req),
    (withReq r).req 7 = some r ∧ (withReq r).depsMet r = true ∧ (∀ x ∈ r.lanes, ∀ tg ∈ x.target, (withReq r).lateKind r tg = none) ∧
    (∀ y ∈ sectorsIn 0 0x20030 4, (withReq r).sectorState y = 0) := by decide +kernel

def casLane : LaneReq := { lane := 3, va := 0x500, target := some { place := .host 0x500 }, data := 5, aux := 0, out := true, free := true, wait := true }
def sCas : State := withReq (req1 (.atom 9 false true false) casLane)

theorem test_w_cas : sCas.req 7 = some (req1 (.atom 9 false true false) casLane) ∧ casLane.wait = true ∧ casLane.done = false ∧ casLane.back = false ∧
    (0 = casLane.aux) ∧ (1 ≠ casLane.aux) := by decide +kernel

/-- Deque headers: four entries of capacity 16; full; empty; a capacity that is no power of two. -/
def dqHeader (cap bottom top : Nat) : Nat := cap * 2 ^ 64 + bottom * 2 ^ 32 + top

theorem test_w_deque_forms : capOk (bits (dqHeader 16 9 5) 95 64) = true ∧ (bits (dqHeader 16 9 5) 63 32 + 2 ^ 32 - bits (dqHeader 16 9 5) 31 0) % 2 ^ 32 = 4 ∧
    (dqHeader 16 9 5).testBit 97 = false ∧ (bits (dqHeader 16 4 (2 ^ 32 - 12)) 63 32 + 2 ^ 32 - bits (dqHeader 16 4 (2 ^ 32 - 12)) 31 0) % 2 ^ 32 = 16 ∧
    (bits (dqHeader 16 9 9) 63 32 + 2 ^ 32 - bits (dqHeader 16 9 9) 31 0) % 2 ^ 32 = 0 ∧ capOk (bits (dqHeader 12 9 5) 95 64) = false := by decide +kernel

def sDq : State := withPad (req1 .dqPush (padLane 77))

theorem test_w_deque_step : sDq.dequeReady 0 = [(0, 0, 3, 7)] ∧ sDq.reqs = [(7, some (req1 .dqPush (padLane 77)))] ∧
    sDq.depsMet (req1 .dqPush (padLane 77)) = true := by decide +kernel

/-- A copy of 64 bytes of crew 0, not started, into the scratchpad or into device memory. -/
def copyTo (kind dst : Nat) : Copy :=
  { crew := 0, core := 0, pc := 0x1000, lane := 0, group := 4, desc := 0x40000 + dst * 2 ^ 64 + 64 * 2 ^ 128 + 2 ^ 160 + kind * 2 ^ 320, barrier := 0, put := false }
def withCopy (c : Copy) : State :=
  let s := (sP.modCrew 0 (fun k => { k with copies := 1 })).modCore 0 (fun g => { g with copies := [7] })
  { s with groups := [(4, some { crew := 0, left := 1 })] }.setCopy 7 (some c)

theorem test_w_copy_start : (withCopy (copyTo 0 (nwb + 2 ^ 21))).copy 7 = some (copyTo 0 (nwb + 2 ^ 21)) ∧
    ((withCopy (copyTo 0 (nwb + 2 ^ 21))).core 0).restoring = none ∧ (copyTo 0 (nwb + 2 ^ 21)).aims = [0] ∧
    (withCopy (copyTo 0 (nwb + 2 ^ 21))).reachable (copyTo 0 (nwb + 2 ^ 21)) 0 = true ∧
    (withCopy (copyTo 0 (nwb + 5 * 2 ^ 21))).reachable (copyTo 0 (nwb + 5 * 2 ^ 21)) 1 = false := by decide +kernel

def startedTo (kind dst : Nat) : Copy := { copyTo kind dst with started := some 50, reached := 1 }

abbrev readOk (r : EngineRead × State) : Bool := match r.1 with | .ok _ false => true | _ => false

theorem test_w_copy_pad : let c := startedTo 0 (nwb + 2 ^ 21)
    c.parked = false ∧ c.fault = none ∧ c.spent = false ∧ ((withCopy c).core 0).routeFree ≤ (withCopy c).cycle ∧
    readOk ((withCopy c).pieceData c c.pieceSize.1) = true ∧ c.reached = 2 ^ 0 ∧ (withCopy c).copyBlock c 0 = some 0 ∧
    ((withCopy c).core 0).fenced = false := by decide +kernel

theorem test_w_copy_far : let c := startedTo 6 0x50000
    c.spent = false ∧ readOk ((withCopy c).pieceData c c.pieceSize.1) = true ∧ c.pieceSize.2 = 64 ∧
    (withCopy c).translate 0 0 0x50000 64 .write true = .ok { atHbm 0x50000 with level := 2, shadow := true } := by decide +kernel

def flown : Copy := { startedTo 6 0x50000 with piece := 1, row := 1, flying := 1 }

theorem test_w_copy_ends : 0 < flown.piece ∧ flown.fault = none ∧ flown.put = false ∧ flown.missed = 0 ∧
    Tab.get none (withCopy flown).groups flown.group = some { crew := 0, left := 1 } ∧
    ({ flown with missed := 2, reached := 0 } : Copy).missed ≠ 0 := by decide +kernel

/-- Group 0 of sett 0 at attempt 3, where the sett is member 1 of two; collective 4 of it runs in slot 2. -/
def coll2 : Coll := { crew := 0, group := 0, attempt := 3, op := 0, type := 0, red := 0, send := 0x40000, recv := 0x50000, count := 4, doneCtr := 0, copyGroup := 4, got := [], seq := 4, pc := 0x1000, lane := 0, stamp := {}, frontier := {} }
def sGrp : State := sP.modSett 0 (fun t => { t with groups := [(0, { v := true, attempt := 3, me := 1, n := 1 })], colls := [(2, some coll2)] })

theorem test_w_collectives : staleAttempt (sGrp.group 0 0).attempt 2 = true ∧ staleAttempt (sGrp.group 0 0).attempt 3 = false ∧
    staleAttempt (sGrp.group 0 0).attempt 4 = false ∧ (sGrp.group 0 0).attempt = 3 ∧ sGrp.collSlot 0 0 3 4 = some (2, coll2) ∧ 0 ≠ (sGrp.group 0 0).me ∧
    sGrp.collSlot 0 0 3 5 = none := by decide +kernel

/-- A 4 GiB page from address 0 in the engine's tables, and the same collective with its contributions there. -/
def paged (s : State) : State :=
  { (s.modSett 0 (fun t => { t with setbase := [(0, 0x200000)] })) with
    hbm := Memory.writeN (Memory.writeN s.hbm 0x200000 8 0x300001) 0x300000 8 (2 + 2 ^ 10 + 2 ^ 11 + 2 ^ 58) }

abbrev bufOk (s : State) (b : Buffer) : Bool := match b with | .ok parts => (s.partsWritable parts).1 | _ => false

theorem test_w_collective_done : Tab.get none ((paged sGrp).sett 0).colls 2 = some coll2 ∧ coll2.aborted = false ∧ coll2.doneCtr = 0 ∧
    bufOk (paged sGrp) ((paged sGrp).collBuffer 0 coll2.recv (coll2.sizes 2).2 .write true) = true := by decide +kernel

/-- A word with a primary value of crew 1 and a write of crew 2 that knows nothing of it, or of crew 1 later. -/
def stampOf (crew seq : Nat) : Stamp := { devgen := 1, crew := crew, epoch := 1, seq := seq }
def sCell : State := sE.modSett 0 (fun t => { t with cells := [(0x20030 / 4, some { gen := 1, pstamp := stampOf 1 4, sibs := [] })] })

theorem test_w_cell : ((sCell.sett 0).cell 0x20030).map CellRec.gen = some (sCell.sett 0).devgen ∧ inContext 0x20030 = false := by decide +kernel

/-! ## Witnesses: the sequencer, products, translation, coherence -/

/-- Block 0 has 8 tile slots and 64 accumulator rows; one operation stands in core 0's queue. -/
def sArr : State := (sP.modBlock 0 (fun b => { b with arrays := 8, accum := 64 })).modCrew 0 (fun c => { c with tiles := 1 })
def withOp (o : SeqOp) : State := sArr.modCore 0 (fun g => { g with seq := [o] })
def op7 (form : Nat) (state : SeqState) (params : Option Nat) : SeqOp :=
  { id := 7, crew := 0, lane := 0, pc := 0x1000, form := form, addr := 0x40000, home := 0, block := 0, core := 0, state := state, params := params }

/-- An MLOAD of slot 2 with its scales at 0x48000; an MMV of slot 2 over one vector of 32 rows in the scratchpad; an ACC of row 3. -/
def mloadBlock : Nat := 1 + 2 * 2 ^ 16 + 0x48000 * 2 ^ 64
def mmvBlock : Nat := 2 + 31 * 2 ^ 16 + 2 * 2 ^ 48 + (nwb + 2 ^ 21) * 2 ^ 128 + (nwb + 2 ^ 21 + 1024) * 2 ^ 256
def accBlock (op : Nat) : Nat := 4 + op * 16 + 3 * 2 ^ 16 + (if op = 0 then 0 else 0x48000 * 2 ^ 64)

abbrev loadOk (r : SeqRead × State) (v : Nat → Bool) : Bool := match r.1 with | .ok w false => v w | _ => false

/-- The parameter block stands in memory. -/
def withBlock (o : SeqOp) (p : Nat) : State := (withOp o).hbmWriteKey 0 0x40000 128 1 p none

theorem test_w_block_read : let o := op7 1 .queued none
    (withBlock o mloadBlock).seqOp 0 7 = some o ∧ o.addr % 128 = 0 ∧ o.home = 0 ∧
    loadOk ((withBlock o mloadBlock).seqLoad o o.addr 128) (fun p => p = mloadBlock) = true ∧ badBlock 1 mloadBlock 8 64 = none ∧ mMask mloadBlock = 0 ∧
    loadOk ((withBlock o 9).seqLoad o o.addr 128) (fun p => p = 9) = true ∧ badBlock 1 9 8 64 = some 1 ∧ badBlock 1 mloadBlock 2 64 = some 2 := by
  decide +kernel

/-- Operation 7 stands at core 0; core 1 holds a block of the gang and no entry of it. -/
def multi7 : SeqOp := { op7 2 .queued (some (mmvBlock + 3 * 2 ^ 40)) with targets := 2 }
def sMulti : State := (withOp multi7).setBlock 1 { (sArr.block 0) with core := 1, bid := 1 }

theorem test_w_multicast : (sMulti.cores.findSome? (fun p => if p.1 = 4 * (1 / 4) + p.1 % 4 && p.1 != 1 then
      p.2.seq.find? (fun z => z.id = 7 && z.home = p.1) else none)) = some multi7 ∧ sMulti.seqOp 1 7 = none ∧
    multi7.targets.testBit 1 = true ∧ (sMulti.maskOf? multi7).testBit 1 = true ∧ sMulti.gangBlockOn 0 0 1 = some 1 := by decide +kernel

theorem test_w_seq_start : let o := op7 1 .queued (some mloadBlock)
    ((withOp o).core 0).restoring = none ∧ ((withOp o).core 0).fenced = false ∧ ((withOp o).core 0).startable = some o ∧
    o.issued + 1 ≤ (withOp o).cycle ∧ (∀ x ∈ (withOp o).opTiles o, x.compute = false) := by decide +kernel

theorem test_w_seq_ends : (op7 2 .running (some mmvBlock)).state ≠ .retired ∧ (op7 2 .running none).stopped = false ∧
    (withOp { op7 1 .retired none with reached := 1 }).accWrites 7 = false := by decide +kernel

/-- An AMODE of slots 2 and 3 that waits for the phase before the barrier's. -/
def amode7 (state : SeqState) : SeqOp := { op7 5 state none with addr := 0xFF * 2 ^ 24 + 2 ^ 8 + 2, compute := true }

theorem test_w_amode : (withOp (amode7 .waiting)).seqOp 0 7 = some (amode7 .waiting) ∧ ((withOp (amode7 .waiting)).barrier 0 0).broken = false ∧
    amodeReady ((withOp (amode7 .waiting)).barrier 0 (16 * oBar (amode7 .waiting).addr)) (oPhase (amode7 .waiting).addr) = true ∧
    (withOp (amode7 .waiting)).copyInto 0 0 2 2 = false ∧ ((withOp (amode7 .waiting)).core 0).running < 4 ∧ (sArr.block 0).live = true := by decide +kernel

theorem test_w_mload_slot : loadOk ((withOp (op7 1 .running (some mloadBlock))).seqLoad (op7 1 .running (some mloadBlock)) (lScales mloadBlock) 512)
    (fun _ => true) = true := by decide +kernel

def running (form p : Nat) : SeqOp := op7 form .running (some p)

theorem test_w_product : let o := running 2 mmvBlock
    badBlock 2 mmvBlock 8 64 = none ∧ o.fetched < o.count ∧ o.vector o.fetched = some 0 ∧ (o.vector o.sumv).isSome = true ∧
    loadOk ((withOp o).seqLoad o (mIn mmvBlock) (mLen mmvBlock * mRows mmvBlock)) (fun _ => true) = true ∧
    loadOk (((withOp o).seqLoad o (mIn mmvBlock) (mLen mmvBlock * mRows mmvBlock)).2.seqLoad o (mIsc mmvBlock) 1) (fun _ => true) = true ∧
    ({ o with converting := true } : SeqOp).converting = true ∧ mAcc mmvBlock = false ∧ mGate mmvBlock = 0 ∧ mAcc (mmvBlock + 2 ^ 14) = true := by
  decide +kernel

theorem test_w_acc : (∀ k ∈ [0, 1, 3], badBlock 4 (accBlock k) 8 64 = none ∧ aOp (accBlock k) = k) ∧
    (∀ k ∈ [1, 3], loadOk ((withOp (running 4 (accBlock k))).seqLoad (running 4 (accBlock k)) (rowAddr (aMem (accBlock k)) (aStride (accBlock k)) 0) 256)
      (fun _ => true) = true) := by decide +kernel

abbrev leafIs (w : WalkEnd) : Bool := match w with | .leaf l => l = codeLeaf | _ => false

/-- A walk of crew 0's threads, a fault entry and an invalidation. -/
def walkOf (again : Bool) : Walk := { sett := 0, core := 0, va := 0x50000, access := .read, started := 90, waiters := [.threads 0 0x1000 3#32 90], again := again }
def sWalk (again : Bool) : State :=
  { setTh (setTh (paged sP) 0 (fun t => { t with st := .parked })) 1 (fun t => { t with st := .parked }) with walks := [(3, some (walkOf again))] }

theorem test_w_walk : Tab.get none (sWalk true).walks 3 = some (walkOf true) ∧ Tab.get none (sWalk false).walks 3 = some (walkOf false) ∧
    leafIs ((sWalk false).walk 0 0x50000) = true ∧ ((sWalk false).crew 0 |>.thread 0).st = .parked := by decide +kernel

def faultAt (va res : Nat) : FaultEntry := { va := va, kind := 1, seq := 6, rp := true, res := res, agent := 1 }
def sFault (va res : Nat) : State := (paged sP).modSett 0 (fun t => { t with setbase := (5, 0xFFFF) :: t.setbase |>.reverse, faults := [(2, faultAt va res)] })

theorem test_w_faults : ((sFault 0x50000 0).sett 0).faultWait = [] ∧ ((sFault 0x50000 0).sett 0).base 5 = 0xFFFF ∧
    ((sFault 0x50000 0).sett 0).faults.any (fun x => x.2.rp && x.2.res = 0 && !x.2.pst) = true ∧ ((sFault 0x50000 0).fault 0 2).res = 0 ∧
    bits (6 * 2 ^ 43 + 2 ^ 27) 58 43 = 6 % 2 ^ 16 ∧ bits (6 * 2 ^ 43 + 2 ^ 27) 28 27 = 1 ∧ bits (6 * 2 ^ 43 + 2 * 2 ^ 27) 28 27 = 2 ∧
    bits (7 * 2 ^ 43) 58 43 ≠ 6 % 2 ^ 16 := by decide +kernel

theorem test_w_fault_retry : ((sFault (2 ^ 44) 1).fault 0 2).res = 1 ∧ (match (sFault (2 ^ 44) 1).walk 0 (2 ^ 44) with | .fault 1 3 => true | _ => false) = true ∧
    ((sFault 0x50000 1).fault 0 2).res = 1 ∧ leafIs ((sFault 0x50000 1).walk 0 0x50000) = true ∧
    (match (sFault 0x50000 1).applyLeaf 0 0x50000 1 (accessOf 0) codeLeaf false with | .ok _ => true | _ => false) = true := by decide +kernel

def invOf (left : List Nat) : TlbInv := { req := 7, crew := 0, va := 0x50000, scope := 2, left := left, lane := 3 }
def invLane : LaneReq := { lane := 3, va := 0x50000, target := none, due := 90 }
def sInv (left : List Nat) : State := { withReq (req1 .tlbinv invLane) with invs := [(3, some (invOf left))] }

theorem test_w_tlbinv_events : Tab.get none (sInv [0]).invs 3 = some (invOf [0]) ∧ (invOf [0]).applied = [] ∧ (1 ≠ 0 ∧ 1 ∈ (invOf [0, 1]).left) ∧
    (sInv [0]).req 7 = some (req1 .tlbinv invLane) ∧ ((sInv [0]).core 0).tlb ≠ [] := by decide +kernel

/-! ## Witnesses: coherence, shared regions, the host's registers and commands -/

/-- Sector 2,048 of sett 0 (address 0x20000) in a state, with a core of sett 1 named or an owner. -/
def x0 : Nat := sectorOf 0 0x20000
def sDir (st : Nat) (own : Nat) : State :=
  { sE with cycle := 100 }.modSett 0 (fun t => { t with dir := [(dirKey x0, { sst := [st, 1, 0, 0], ptrs := [129], own := own })] })

theorem test_w_home : sectorSett x0 = 0 ∧ sharerOf x0 130 = true ∧ (sDir 1 0).inVictims x0 = false ∧ (sDir 1 0).waitsFor 130 x0 = [] ∧
    (sDir 1 0).dirOf x0 ≠ DirEntry.init ∧ (sDir 1 0).sectorState x0 = 1 ∧ x0 % 4 < ((sDir 1 0).dirOf x0).sst.length ∧
    (sDir 0 0).sectorState x0 = 0 ∧ (sDir 0 0).dirOf x0 ≠ DirEntry.init ∧ 2 ≤ (sDir 2 3).sectorState x0 := by decide +kernel

/-- A put that has left the own sett's port for 0x20030. -/
def putReq : Req := { req1 .store (going { place := .hbm 0 0x20030, key := 1 } true) with phase := 2 }

theorem test_w_put_write : (withReq putReq).req 7 = some putReq ∧ (withReq putReq).lateKind putReq { place := .hbm 0 0x20030, key := 1 } = none ∧
    inContext 0x20030 = false ∧ (∀ z ∈ sectorsIn 0 0x20030 4, (withReq putReq).sectorState z = 0 ∧ (withReq putReq).inVictims z = false) := by decide +kernel

/-- A collector of two acknowledgements of sector x0 from core 129. -/
def coll1 (got : Nat) : Collector := { expected := 2, got := got, names := [129], sectors := [x0], acks := [1], req := none }
def sCol (got : Nat) : State := (sDir 1 0).modSett 0 (fun t => { t with collectors := [(5, some (coll1 got))] })
def sSharer (st : SectorSt) : State :=
  (sCol 0).modCore 129 (fun g => { g with sectors := [(x0, st)], l1 := [{ line := lineOf 0 0x20000, words := [] }] })

theorem test_w_collectors : Tab.get none ((sCol 0).sett 0).collectors 5 = some (coll1 0) ∧ (coll1 0).got + (coll1 0).acks.headD 0 < (coll1 0).expected ∧
    (coll1 1).expected ≤ (coll1 1).got + (coll1 1).acks.headD 0 ∧ coreSett 129 = 3 - 2 := by decide +kernel

theorem test_w_sharers : Tab.get SectorSt.i ((sSharer .s).core 129).sectors x0 = .s ∧ Tab.get SectorSt.i ((sSharer .is).core 129).sectors x0 = .is ∧
    Tab.get SectorSt.i ((sSharer .si).core 129).sectors x0 = .si ∧ Tab.get SectorSt.i ((sSharer .isi).core 129).sectors x0 = .isi ∧
    (sSharer .si).waitsFor 129 x0 = [] ∧ (((sSharer .is).core 129).line (lineOf (sectorSett x0) (sectorAddr x0))).isSome = true ∧
    (sDir 2 3).owns 3 x0 = true ∧ (sDir 2 1).owns 1 x0 = true ∧ (sDir 2 3).owns 1 x0 = false := by decide +kernel

/-- Export 1 of sett 0 is revoked: 4 KiB from 0x60000; window 6 of sett 1 imports it. -/
def sExport : State :=
  let s := sE.modSett 0 (fun t => { t with setbase := [(4, 0x400000)] })
  let s := s.modSett 1 (fun t => { t with windows := [(6, { handle := 2 ^ 40, size := 0x1000, st := 1 })] })
  { s with hbm := Memory.writeN s.hbm 0x400040 64 (2 + 0x1000 * 2 ^ 384 + 0x60000 * 2 ^ 448) }

theorem test_w_export : (sExport.sett 0).base 4 ≠ 0 ∧ bits (sExport.hbmRead 0 0x400040 64) 1 0 = 2 ∧ sExport.sharedIn 0 0x60000 0x1000 = [] ∧
    sExport.acksIn 0 0x60000 0x1000 = false ∧ (windowOf (sExport.sett 1) 6).st = 1 ∧ (windowOf (sExport.sett 1) 6).handle / 2 ^ 52 = 0 ∧
    (windowOf (sExport.sett 1) 6).handle / 2 ^ 49 % 8 = 0 ∧ bits (windowOf (sExport.sett 1) 6).handle 48 40 = 1 := by decide +kernel

/-- Area 2 is replicated on setts 0 and 1, sequenced at sett 1; a store of sett 0 into it stands there; update 4 waits at sett 0. -/
def area2 (base next : Nat) (pending : List Update) : Area := { base := base, size := 0x10000, next := next, members := 3, seqr := 1, v := true, pending := pending }
def repReq : Req := req1 .store (going { place := .hbm 0 0x20030, key := 1, rep := true } true)
def update4 : Update := { number := 4, off := 0x30, bytes := 4, value := 0xBEEF, key := 1, tag := none, writer := 32 * 9 + 3 }
def sRep (next : Nat) : State :=
  ((withReq repReq).modSett 0 (fun t => { t with areas := [(2, area2 0x20000 next [update4])] })).modSett 1
    (fun t => { t with span := .service, areas := [(2, area2 0x70000 5 [])] })

theorem test_w_replica : (sRep 4).req 7 = some repReq ∧ ((sRep 4).area 0 2).seqr = 1 ∧ (sRep 4).depsMet repReq = true ∧
    (sRep 4).sequencerReady 1 2 = true ∧ (sRep 4).lateKind repReq { place := .hbm 0 0x20030, key := 1, rep := true } = none ∧
    inContext 0x70030 = false ∧ (∀ y ∈ sectorsIn 1 0x70030 4, (sRep 4).sectorState y = 0) ∧
    (∀ n ∈ [3, 4, 5], ((sRep n).area 0 2).pending.find? (fun v => v.number = 4) = some update4 ∧ ((sRep n).area 0 2).next = n ∧ ((sRep n).area 0 2).v = true) ∧
    (sRep 4).req (update4.writer / 32) = none := by decide +kernel

theorem test_w_host_access : ({ sE with hib := { step := 4 } } : State).hib.step = 4 ∧ sE.hib.step < 4 ∧ (sE.sett 0).span ≠ .suspension ∧
    ((sE.modSett 0 (fun t => { t with span := .suspension })).sett 0).span = .suspension ∧ contextArea 0x20000 = false ∧ contextArea 0x1C00000000 = true ∧ (sE.sett 0).inFaultBuffer 0x20000 = false ∧
    (∀ j, j < 16 → (sE.sett 0).cell (0x20000 + 4 * j) = none) ∧ sE.sectorState x0 = 0 ∧ ((sDir 2 1).dirOf x0).own = 1 ∧ 2 ≤ (sDir 2 1).sectorState x0 ∧
    (∀ j, j < 16 → ((sDir 2 1).sett 0).cell (0x20000 + 4 * j) = none) := by decide +kernel

/-- Sett 0 carries out a command with two arguments, in a span. -/
def sCom (span : Span) (op a v : Nat) : State :=
  { sE.modSett 0 (fun t => { t with span := span, authenticated := true, cmdBusy := true, cmdBase := 0x8000, cmdSize := 4, cmdTail := 1 }) with
    hostMem := Memory.writeN [] 0x8000 64 (op + a * 2 ^ 64 + v * 2 ^ 128) }

theorem test_w_commands : ((sCom .startUp 1 3 0x1000).sett 0).cmdBusy = true ∧ (sCom .startUp 1 3 0x1000).commandBar 0 = none ∧
    comArg0 ((sCom .startUp 1 3 0x1000).command 0) = 3 ∧ comArg1 ((sCom .startUp 1 3 0x1000).command 0) = 0x1000 ∧ baseOk 3 0x1000 = true ∧
    baseOk 3 0x1001 = false ∧ (sCom .service 1 3 0x1000).commandBar 0 = none ∧ (sCom .service 2 0x500 0).commandBar 0 = none ∧ 0x500 % 128 = 0 := by
  decide +kernel

theorem test_w_import : let v := 6 + 9 * 2 ^ 8
    bits v 127 13 = 0 ∧ bits v 12 8 < 18 ∧ (sCom .service 5 (2 ^ 40) v).exportAnswer (2 ^ 40) 9 = (none, sCom .service 5 (2 ^ 40) v) := by decide +kernel

/-- The same command where export 1 of sett 0 exists. -/
def sImport : State :=
  let s := (sCom .service 5 (2 ^ 40) 6).modSett 0 (fun t => { t with setbase := [(4, 0x400000)] })
  { s with hbm := Memory.writeN s.hbm 0x400040 64 (1 + 0xE0 + 0x1000 * 2 ^ 384 + 0x60000 * 2 ^ 448) }

theorem test_w_import_good : (sImport.exportAnswer (2 ^ 40) 0).1 = some (0x1000, true, true, true) ∧ sImport.commandBar 0 = none := by decide +kernel

def sClosing : State := (sCom .service 6 6 0).modSett 0 (fun t => { t with windows := [(6, { handle := 2 ^ 40, st := 2, closing := true })] })

theorem test_w_unimport : sClosing.commandBar 0 = none ∧ (windowOf (sClosing.sett 0) 6).closing = true ∧ sClosing.usesWindow 0 6 = false := by decide +kernel

/-- Queue 5 with its ring at 0x800000: enabled, 16 cards deep, with `n` of them waiting. -/
def queue5 (n flags : Nat) : State :=
  let s := sE.modSett 0 (fun t => { t with span := .service, authenticated := true, setbase := [(0, 0x200000), (3, 0x480000)] })
  { s with hbm := Memory.writeN (Memory.writeN (Memory.writeN s.hbm 0x480140 64 (flags + 4 * 16 + n * 2 ^ 352 + 0x800000 * 2 ^ 448)) 0x200000 8 0x300001)
             0x300000 8 (2 + 2 ^ 10 + 2 ^ 11 + 2 ^ 58) }

theorem test_w_doorbell : (queue5 0 1).intake 0 = true ∧ bits ((queue5 0 1).queueWord 0 5) 8 4 ≤ 16 ∧ qSrc ((queue5 0 1).queueWord 0 5) = false ∧
    (3 % 2 ^ 32 + 2 ^ 32 - qHead ((queue5 0 1).queueWord 0 5)) % 2 ^ 32 ≤ qDepth ((queue5 0 1).queueWord 0 5) ∧
    qClosed ((queue5 0 1).queueWord 0 5) = false ∧ qSrc ((queue5 0 5).queueWord 0 5) = true ∧
    qDepth ((queue5 0 1).queueWord 0 5) < (17 % 2 ^ 32 + 2 ^ 32 - qHead ((queue5 0 1).queueWord 0 5)) % 2 ^ 32 := by decide +kernel

/-! ## Witnesses: queues, gangs, swap-outs -/

/-- Region block 0x600000, a root with everything valid; kernel descriptor 0x700000 of one crew of 16 registers at 0x1000. -/
def rootBlock : Nat := 28 * 2 ^ 724 + 32 * 2 ^ 730 + 32 * 2 ^ 744 + 16384 * 2 ^ 752 + 16384 * 2 ^ 768 + 16384 * 2 ^ 784 + 0x2000 * 2 ^ 896 + 0xFFF * 2 ^ 704
def card5 (gen : Nat) : Nat := 7 + 5 * 2 ^ 18 + gen * 2 ^ 37 + 2 * 2 ^ 40 + 0x700000 * 2 ^ 64 + 77 * 2 ^ 320

/-- Queue 5 under that region with one card. -/
def sQueue (c : Nat) : State :=
  let s := queue5 1 1
  let s := { s with hbm := Memory.writeN (Memory.writeN (Memory.writeN s.hbm 0x480170 8 0x600000) 0x600000 128 rootBlock) 0x800000 64 c }
  s.hbmWriteKey 0 0x700000 64 1 0x1000 none

def ready5 (s : State) (checked : Bool) : State := s.modSett 0 (fun t => { t with queues := [(5, { admitted := true, checked := checked, dep := checked })] })

theorem test_w_head_check : let s := ready5 (sQueue (card5 0)) false
    (s.sett 0).launches = [] ∧ qEn (s.queueWord 0 5) = true ∧ qErr (s.queueWord 0 5) = false ∧ s.intake 0 = true ∧ (s.queue 0 5).admitted = true ∧
    (s.queue 0 5).launch = none ∧ qUsed (s.queueWord 0 5) ≠ 0 ∧ s.physRead 0 (cardAddr (s.queueWord 0 5) (qHead (s.queueWord 0 5))) 64 = card5 0 ∧
    cardOk (card5 0) 5 = true ∧ s.engineRead 0 (cKdesc (card5 0)) 64 = some 0x1000 ∧ kdescOk 0x1000 = true ∧ s.dependenceMet 0 (card5 0) = some true ∧
    cardOk 9 5 = false ∧ qEn ((queue5 1 0).queueWord 0 5) = false ∧ s.enabledQueues 0 = [5] := by decide +kernel

theorem test_w_start : let s := ready5 (sQueue (card5 0)) true
    (s.queue 0 5).checked = true ∧ (s.queue 0 5).dep = true ∧ s.leadHolds 0 5 = false ∧ (s.sett 0).genHold = none ∧
    (s.region 0 (qRcb (s.queueWord 0 5))).isSome = true ∧ cGangs (card5 0) = 2 ∧ cGen (card5 0) = false ∧ cGen (card5 1) = true := by decide +kernel

def reg5 : Region := { handler := 0x2000, clusters := 32, store := 16384, arrays := 16384, queues := 16384, th1 := 28, th2 := 32 }
def launch5 : Launch := { card := card5 0, queue := 5, gangs := 2, placed := 0, ended := 0, failed := false, started := 0, index := 0, rcb := 0x600000, region := reg5, kdesc := 0x1000 }

/-- The card runs and queue 5 holds virtual cluster 0; record 0 holds the placed gang. -/
def sLaunch (free : Bool) : State :=
  (ready5 (sQueue (card5 0)) false).modSett 0 (fun t => { t with
    launches := [launch5], nextLaunch := 1, queues := [(5, { admitted := true, checked := true, dep := true, launch := some 0 })]
    clusters := if free then [] else [(0, { holder := some 5 })] })

theorem test_w_place : let s := (sLaunch false).settleClusters 0
    (sLaunch false).hib.step = 0 ∧ ((sLaunch false).sett 0).span = .service ∧
    ((firstCand ((s.candidates 0).filter (fun x => (s.place? 0 x).isSome))).map (fun c => (c.swapped, c.gangRec, c.queue, (s.place? 0 c).map Prod.fst,
      (s.revokeFor c.launch.kdesc (((s.place? 0 c).map Prod.snd).getD [])).1))) = some (false, none, 5, some 0, false) ∧ (s.sett 0).freeRecord = some 1 ∧
    ((sE.settleClusters 0).candidates 0).length = 0 := by decide +kernel

/-- The cluster's cores are fenced but the one that holds a gang of lower priority, which fills it. -/
def sFull : State :=
  let s := (sLaunch false).modSett 0 (fun t => { t with launches := [{ launch5 with region := { reg5 with prio := 3 } }] })
  let s := s.modRecord 0 0 (fun x => { x with vclus := 0, prio := 1 })
  { (List.range 4).foldl (fun (s : State) g => s.modCore g (fun c => { c with retired := 128 })) s with cycle := 70000 }

theorem test_w_swap_decision : sFull.hib.step = 0 ∧ (((sFull.candidates 0).filter (fun x => (sFull.place? 0 x).isNone)).map
      (fun c => (decide (c.swapDue ≤ sFull.cycle), sFull.victimFor 0 c)) = [(true, some 0)]) ∧ (sFull.sett 0).swaps = [] ∧
    ((sFull.sett 0).contextRoom (sFull.imageBytes 0 0)).isSome = true := by decide +kernel

theorem test_w_reallocation : ((sLaunch true).sett 0).span ≠ .suspension ∧ (∀ y, y < 32 → (((sLaunch true).sett 0).cluster y).leaving = false) ∧
    (∀ y, y < 32 → (((sLaunch true).sett 0).cluster y).holder = none) ∧ (sLaunch true).grantee 0 = some 5 := by decide +kernel

/-- Crew 0 has ended: alone in its gang, and beside another crew. -/
def ended (s : State) : State := s.modCrew 0 (fun c => { c with threads := c.threads.map (fun t => (t.1, { t.2 with st := .exited })) })
def sTwo : State := (ended sE).setCrew 1 { sE.crew 0 with idx := 1 }

theorem test_w_crew_end : ((ended sE).crew 0).finished = true ∧ ((ended sE).crew 0).stopped = false ∧ ((ended sE).crew 0).leases = [] ∧
    (ended sE).gangCrews 0 0 = [0] ∧ Tab.wf LaunchRec.init ((ended sE).sett 0).records = true ∧ (sTwo.crew 0).finished = true ∧
    sTwo.gangCrews 0 0 = [0, 1] := by decide +kernel

def sCatch : State := sE.modRecord 0 0 (fun x => { x with recov := true, gt := true, catch_ := 100 }) |> fun s => { s with cycle := 100 }

theorem test_w_catchup : (sCatch.record 0 0).st ≠ .free ∧ (sCatch.record 0 0).recov = true ∧
    (sCatch.record 0 0).placedAt + (sCatch.record 0 0).catch_ ≤ sCatch.cycle := by decide +kernel

/-- The placed gang is being swapped out, in a step. -/
def swap0 (k : SwapStep) : Swap := { gangRec := 0, step := k, started := 0, image := 0x1C00000000, size := 131072 }
def sSwap (k : SwapStep) : State := { sE.modSett 0 (fun t => { t with swaps := [swap0 k], contexts := [(0x1C00000000, 131072)] }) with cycle := 1000 }

theorem test_w_swaps : (∀ k ∈ ([.stop, .drain, .close, .write, .free] : List SwapStep), (sSwap k).swapAt 0 0 k = some (swap0 k)) ∧
    (sSwap .drain).drained 0 0 = true ∧ (({ sSwap .drain with reqs := [(7, some (req1 .load arrived))] } : State).drained 0 0 = false) ∧
    (∀ g ∈ (sSwap .close).gangCores 0 0, ((sSwap .close).core g).restoring = none) ∧ (sSwap .close).closeAt 0 0 ≤ (sSwap .close).cycle := by decide +kernel

def sRestore : State := sE.modRecord 0 0 (fun x => { x with restoring := 1, image := 0x1C00000000 })

theorem test_w_restore : (sRestore.block (blockKey 0 0 0)).live = true ∧ (sRestore.record 0 0).restoring = 1 ∧ (sRestore.record 0 0).image ≠ 0 ∧
    (sRestore.readPoison 0 0x1C00000000 (sRestore.record 0 0).kdesc).2 = false := by
  decide +kernel

/-! ## Witnesses: strikes, links, trust, power, images -/

/-- Core 0 with a number of events in the last 2^24 cycles, and in a recovery span. -/
def sStruck (n : Nat) : State :=
  { sE with cycle := 2 ^ 20 }.modCore 0 (fun g => { g with strikes := (List.range n).map (fun k => 100 + k), recoveryLeft := 257 })

theorem test_w_strikes : ((sStruck 3).core 0).fenced = false ∧ (sStruck 3).strikeEvent (coreDie 0) = none ∧ (sStruck 3).cycle ∉ ((sStruck 3).core 0).strikes ∧
    (((sStruck 3).core 0).strikes.filter (fun t => decide ((sStruck 3).cycle < t + 2 ^ 24))).length < 15 ∧
    15 ≤ (((sStruck 15).core 0).strikes.filter (fun t => decide ((sStruck 15).cycle < t + 2 ^ 24))).length ∧ (sStruck 15).strikeEvent (coreDie 0) = none ∧
    ((sStruck 3).core 0).recoveryLeft = 256 + 1 := by decide +kernel

/-- An operation has run for 2^38 cycles on core 0. -/
def sLongRun : State := { withOp (op7 4 .running (some (accBlock 0))) with cycle := 2 ^ 38 }

theorem test_w_pause : max (sLongRun.core 0).lastCal (Tab.get 0 (sLongRun.core 0).calibrated 3) + 2 ^ 37 ≤ sLongRun.cycle ∧
    (sLongRun.core 0).seq.any (fun o => o.state = .running) = true ∧ sLongRun.convertingOn 0 = false ∧ (sLongRun.sett 0).corrected = [] ∧
    (∀ y ∈ sLongRun.blocks, y.2.poison = []) ∧ sLongRun.slotPoison 0 0 2 = false ∧ sLongRun.opPoison (op7 2 .running (some mmvBlock)) = false := by
  decide +kernel

/-- Core 0 restores from the start of cycle 90, where x2 held something else. -/
def snap90 : Snap := { crews := [(0, (withReg sE 2 (fun _ => 7)).crew 0)], blocks := [(0, sE.block 0)], core := sE.core 0, events := [], reqs := [], copies := [], groups := [] }
def sRoll : State := { sE with cycle := 140, journals := [(0, [⟨90, some snap90, [], 0⟩])] }.modCore 0 (fun g => { g with restoring := some 130, point := 80 })

theorem test_w_rollback : (sRoll.core 0).restoring = some 130 ∧ 130 ≤ sRoll.cycle ∧ Tab.get [] sRoll.journals 0 = [⟨90, some snap90, [], 0⟩] ∧
    (sRoll.core 0).point ≤ 90 ∧ (snap90.crews.map Prod.fst).Nodup ∧ (∀ p ∈ snap90.crews, p.2.egress = []) ∧ (∀ p ∈ sRoll.crews, p.2.egress = []) ∧
    0 ∈ sRoll.blocksOn 0 ∧ snap90.blocks.find? (fun p => p.1 = 0) = some (0, sE.block 0) ∧ crewBlock 0 = 0 := by decide +kernel

/-- The journal of core 0 is full of the changes of cycle 90; a row of its sequencer and a calibration are due. -/
def sStuffed : State :=
  { sE with cycle := 140, journals := [(0, [⟨90, some snap90, [], 8192⟩])], agenda := [⟨139, 1, .rowCommit 0 3⟩, ⟨140, 2, .converterCalibration 0 1⟩] }

theorem test_w_full_journal : sStuffed.journalFull 0 = true ∧ 0 ∈ sStuffed.liveCores ∧ sStuffed.needsEntry 0 (.rowCommit 0 3) = true ∧
    (sStuffed.dueEvent.map (fun p => (p.1, p.2.agenda))) = some (.converterCalibration 0 1, [⟨141, 1, .rowCommit 0 3⟩]) ∧
    { sStuffed with cycle := 346 }.journalFull 0 = false := by decide +kernel

/-- Link 4 in a state, with flits in its replay buffer and NAKs counted. -/
def sLink (st naks : Nat) : State :=
  { sE with links := [(4, { st := st, recvSeq := 9, sendSeq := 7, replay := [(5, 55), (6, 66)], naks := naks, peer := 2 })] }

theorem test_w_links : ((sLink 1 3).link 4).st ≠ 0 ∧ 9 = ((sLink 1 3).link 4).recvSeq ∧ flitType (2 ^ 452) = 1 ∧
    (∀ f ∈ ((sLink 1 3).link 4).replay, 256 ≤ ((5 + 4095) % 4096 + 4096 - f.1) % 4096) ∧ ((sLink 1 15).link 4).naks = 15 ∧
    ((sLink 2 0).link 4).st = 2 ∧ ((sLink 2 0).link 4).waiting = [] ∧ (sLink 2 0).reqs = [] ∧ ((sLink 0 0).link 4).st = 0 := by decide +kernel

def sSess (st : Nat) : State := { sE with sessions := [(0, { st := st }), (9, { st := st })] }

theorem test_w_sessions : (∀ n ∈ [0, 1, 2, 3, 4, 5], ((sSess n).session 9).st = n) ∧ ((sSess 5).session 0).st = 5 ∧
    ((sSess 5).keyOf 0 9).isSome = false ∧ ((sSess 5).sett 0).span ≠ .service ∧ (sSess 5).outward 0 = false := by decide +kernel

/-- The extents' list stands at 0x9000 of host memory. -/
def sHib (op a v step : Nat) (span : Span) (size : Nat) : State :=
  let s := sCom span op a v
  { s with hostMem := Memory.writeN (Memory.writeN s.hostMem 0x9000 8 0x100000) 0x9008 8 size, hib := { step := step, extents := a }, cycle := 2 ^ 25 }

theorem test_w_hibernate : ((sHib 16 0x9000 0 0 .service 0).sett 0).cmdBusy = true ∧ (sHib 16 0x9000 0 0 .service 0).commandBar 0 = none ∧
    extentsOk ((sHib 16 0x9000 0 0 .service 0).extents 0x9000) = true ∧ comArg0 ((sHib 16 0x9000 0 0 .service 0).command 0) = 0x9000 ∧
    (sHib 16 0x9000 0 0 .startUp 0).commandBar 0 = none ∧ (sHib 17 0x9000 0 0 .suspension 4096).commandBar 0 = none ∧
    (let s := sHib 17 0x9000 0 0 .suspension 4096
     let m := readExtents s.hostMem 0 (s.extents 0x9000)
     s.imageOk m ((List.range 33).map (sectionAt m)) (s.hostRead 0 57)) = false := by decide +kernel

/-- Nothing is placed, shared, kept in an L1 or in flight. -/
def sCalm (step : Nat) : State := { State.reset with hib := { step := step }, cycle := 2 ^ 25 }

theorem test_w_quiesce : (sCalm 1).anyPlaced = false ∧ (sCalm 1).hib.accepted + 2 ^ 24 ≤ (sCalm 1).cycle ∧
    (∀ y ∈ (sCalm 2).setts, y.2.running = []) ∧ (sCalm 3).outwardDone = true ∧
    (∀ y ∈ (sCalm 4).setts, y.2.dir = [] ∧ y.2.victims = [] ∧ y.2.collectors = []) ∧ (∀ y ∈ (sCalm 4).cores, y.2.l1 = [] ∧ y.2.sectors = []) ∧
    (sCalm 5).hib.step = 5 ∧ (sCalm 6).hib.step = 6 := by decide +kernel

theorem test_w_timeout : (sGrp.sett 0).running = [(0, 3)] ∧ (sGrp.group 0 0).attempt = 3 := by decide +kernel

/-! ## Witness: an image that passes the checks of R443 -/

/-- The digest of an empty section. -/
def dg : Nat := (Config.digest [] 0).toNat

/-- The WAKE record, its one extent of 4 KiB, and the image's magic, version and section count. -/
def wakeHead : Memory :=
  Memory.writeN (Memory.writeN (Memory.writeN (Memory.writeN (Memory.writeN [] 0x8000 64 (17 + 0x9000 * 2 ^ 64 + 0xA000 * 2 ^ 128))
    0x9000 16 (0x100000 + 4096 * 2 ^ 64)) 0x100000 4 0xB1) 0x100004 4 1) 0x100018 2 33

/-- The digests of n empty sections. -/
def withDigests : Nat → Memory
  | 0 => wakeHead
  | n + 1 => Memory.writeN (withDigests n) (0x100060 + 96 * n) 64 dg

def signedPart : Nat := Memory.readN (readExtents (withDigests 33) 0 [(0x100000, 4096)]) 0 0xE00
def wakeMem : Memory := Memory.writeN (withDigests 33) 0x100E00 114 (Config.signature 0 signedPart).toNat
def wakeImage : Memory := readExtents wakeMem 0 [(0x100000, 4096)]
def sWake : State :=
  { sE.modSett 0 (fun t => { t with span := .suspension, authenticated := true, cmdBusy := true, cmdBase := 0x8000, cmdSize := 4, cmdTail := 1 }) with
    hostMem := wakeMem }

theorem read_withDigests_other (n b : Nat) (h : ∀ j, j < n → b < 0x100060 + 96 * j ∨ 0x1000A0 + 96 * j ≤ b) :
    Memory.read (withDigests n) b = Memory.read wakeHead b := by
  induction n with
  | zero => rfl
  | succ n ih =>
    have := h n (by omega)
    rw [withDigests, Memory.read_writeN_other _ _ _ _ _ (by omega), ih (fun j hj => h j (by omega))]

theorem dg_lt : dg < 256 ^ 64 := by
  have h := (Config.digest [] 0).isLt
  rwa [show (256 : Nat) = 2 ^ 8 from rfl, ← Nat.pow_mul]

theorem readN_withDigests (n i : Nat) (h : i < n) : Memory.readN (withDigests n) (0x100060 + 96 * i) 64 = dg := by
  induction n with
  | zero => omega
  | succ n ih =>
    by_cases hi : i = n
    · subst hi
      rw [withDigests, Memory.readN_writeN]
      exact Nat.mod_eq_of_lt dg_lt
    · rw [withDigests, Memory.readN_congr (m' := withDigests n), ih (by omega)]
      intro b h1 h2
      exact Memory.read_writeN_other _ _ _ _ _ (by omega)

theorem read_extent (m : Memory) (a n x : Nat) : Memory.read (readExtents m 0 [(a, n)]) x = if x < n then Memory.read m (a + x) else 0 := by
  induction m with
  | nil => simp [readExtents, Memory.read, Tab.get, memDefault]
  | cons p m ih =>
    simp only [readExtents, List.append_nil, Memory.read] at ih ⊢
    by_cases hp : a ≤ p.1 ∧ p.1 < a + n
    · simp only [List.filter_cons, hp.1, hp.2, decide_true, Bool.and_self, ↓reduceIte, List.map_cons, Tab.get, ih]
      by_cases hx : x = 0 + (p.1 - a)
      · rw [if_pos hx, if_pos (by omega), if_pos (by omega)]
      · rw [if_neg hx]
        by_cases hn : x < n
        · rw [if_pos hn, if_pos hn, if_neg (by omega)]
        · rw [if_neg hn, if_neg hn]
    · have : (decide (a ≤ p.1) && decide (p.1 < a + n)) = false := by simpa using hp
      simp only [List.filter_cons, this, Bool.false_eq_true, ↓reduceIte, Tab.get, ih]
      by_cases hn : x < n
      · rw [if_pos hn, if_pos hn, if_neg (by omega)]
      · rw [if_neg hn, if_neg hn]

theorem readN_extent (m : Memory) (a n x k : Nat) (h : x + k ≤ n) : Memory.readN (readExtents m 0 [(a, n)]) x k = Memory.readN m (a + x) k := by
  induction k generalizing x with
  | zero => rfl
  | succ k ih => rw [Memory.readN, Memory.readN, read_extent, if_pos (by omega), ih (x + 1) (by omega), Nat.add_assoc]

theorem readN_wakeMem (a k : Nat) (h : ∀ b, a ≤ b → b < a + k → b < 0x100E00 ∧ ∀ j, j < 33 → b < 0x100060 + 96 * j ∨ 0x1000A0 + 96 * j ≤ b) :
    Memory.readN wakeMem a k = Memory.readN wakeHead a k := by
  apply Memory.readN_congr
  intro b h1 h2
  obtain ⟨h3, h4⟩ := h b h1 h2
  rw [wakeMem, Memory.read_writeN_other _ _ _ _ _ (by omega), read_withDigests_other _ _ h4]

/-- Parts of the image outside the digests and the signature. -/
theorem readN_image (a k : Nat) (h : a + k ≤ 0x60 ∨ (0xCC0 ≤ a ∧ a + k ≤ 0xE00) ∨ (∃ i, i < 33 ∧ 0x40 + 96 * i ≤ a ∧ a + k ≤ 0x60 + 96 * i)) :
    Memory.readN wakeImage a k = Memory.readN wakeHead (0x100000 + a) k := by
  rw [wakeImage, readN_extent _ _ _ _ _ (by omega), readN_wakeMem]
  intro b h1 h2
  obtain h | h | ⟨i, hi, h3, h4⟩ := h
  · exact ⟨by omega, fun j hj => by omega⟩
  · exact ⟨by omega, fun j hj => by omega⟩
  · exact ⟨by omega, fun j hj => by omega⟩

theorem image_digest (i : Nat) (h : i < 33) : Memory.readN wakeImage (0x40 + 96 * i + 32) 64 = dg := by
  rw [wakeImage, readN_extent _ _ _ _ _ (by omega), ← readN_withDigests 33 i h, wakeMem]
  rw [show 0x100000 + (0x40 + 96 * i + 32) = 0x100060 + 96 * i by omega]
  exact Memory.readN_congr (fun b h1 h2 => Memory.read_writeN_other _ _ _ _ _ (by omega))

theorem image_signature : Memory.readN wakeImage 0xE00 114 = (Config.signature 0 (Memory.readN wakeImage 0 0xE00)).toNat := by
  have hs : Memory.readN wakeImage 0 0xE00 = signedPart := by
    rw [wakeImage, signedPart, readN_extent _ _ _ _ _ (by omega), readN_extent _ _ _ _ _ (by omega)]
    exact Memory.readN_congr (fun b h1 h2 => Memory.read_writeN_other _ _ _ _ _ (by omega))
  rw [hs, wakeImage, readN_extent _ _ _ _ _ (by omega), wakeMem, Memory.readN_writeN]
  apply Nat.mod_eq_of_lt
  have h := (Config.signature 0 signedPart).isLt
  rwa [show (256 : Nat) = 2 ^ 8 from rfl, ← Nat.pow_mul]

theorem head_length : ∀ i, i < 33 → Memory.readN wakeHead (0x100000 + (0x40 + 96 * i + 8)) 8 = 0 := by decide +kernel
theorem head_counts : ∀ q, q < 8 → Memory.readN wakeHead (0x100000 + (0x20 + 2 * q)) 1 = 0 ∧ Memory.readN wakeHead (0x100000 + (0x21 + 2 * q)) 1 = 0 := by
  decide +kernel

theorem image_section (i : Nat) (h : i < 33) : (sectionAt wakeImage i).bytes = [] ∧ (sectionAt wakeImage i).length = 0 ∧ (sectionAt wakeImage i).digest = dg := by
  have hl : Memory.readN wakeImage (0x40 + 96 * i + 8) 8 = 0 := by
    rw [readN_image _ _ (.inr (.inr ⟨i, h, by omega, by omega⟩)), head_length i h]
  refine ⟨?_, hl, image_digest i h⟩
  simp only [sectionAt, hl, partOf, Nat.add_zero]
  rw [List.map_eq_nil_iff, List.filter_eq_nil_iff]
  intro p _
  simp

theorem sections_empty (ty q : Nat) : findSection ((List.range 33).map (sectionAt wakeImage)) ty q = [] := by
  unfold findSection
  split
  · rename_i x hx
    obtain ⟨i, hi, rfl⟩ := List.mem_map.1 (List.mem_of_find?_eq_some hx)
    exact (image_section i (List.mem_range.1 hi)).1
  · rfl

theorem wake_extents : sWake.extents 0x9000 = [(0x100000, 4096)] := by
  have h (a k : Nat) (h : a + k ≤ 0x100000) : Memory.readN wakeMem a k = Memory.readN wakeHead a k := readN_wakeMem a k (fun b h1 h2 => ⟨by omega, fun j hj => by omega⟩)
  have h1 : Memory.readN wakeHead 0x9008 8 = 4096 ∧ Memory.readN wakeHead 0x9000 8 = 0x100000 ∧ Memory.readN wakeHead 0x9018 8 = 0 := by decide +kernel
  show extentList wakeMem (wakeMem.length + 1) 0x9000 = _
  rw [extentList, h _ _ (by omega), h1.1, h _ _ (by omega), h1.2.1]
  cases wakeMem.length with
  | zero => rfl
  | succ n => simp [extentList, h 0x9018 8 (by omega), h1.2.2]

theorem test_w_image : sWake.imageOk (readExtents sWake.hostMem 0 (sWake.extents 0x9000))
    ((List.range 33).map (sectionAt (readExtents sWake.hostMem 0 (sWake.extents 0x9000)))) (sWake.hostRead 0xA000 57) = true := by
  have hk : sWake.hostRead 0xA000 57 = 0 := by
    show Memory.readN wakeMem 0xA000 57 = 0
    rw [readN_wakeMem _ _ (fun b h1 h2 => ⟨by omega, fun j hj => by omega⟩)]
    decide +kernel
  rw [wake_extents, hk]
  show sWake.imageOk wakeImage ((List.range 33).map (sectionAt wakeImage)) 0 = true
  have hh : Memory.readN wakeHead 0x100000 4 = 0xB1 ∧ Memory.readN wakeHead 0x100004 4 = 1 ∧ Memory.readN wakeHead 0x100018 2 = 33 ∧
      Memory.readN wakeHead 0x100D80 57 = 0 := by decide +kernel
  simp only [State.imageOk, sections_empty, ← image_signature, readN_image 0 4 (by omega), readN_image 4 4 (by omega), readN_image 0x18 2 (by omega),
    readN_image 0xD80 57 (by omega), Nat.reduceAdd, hh.1, hh.2.1, hh.2.2.1, hh.2.2.2, decide_true, Bool.true_and, Bool.and_eq_true]
  refine ⟨List.all_eq_true.2 (fun x hx => ?_), List.all_eq_true.2 (fun q hq => ?_)⟩
  · obtain ⟨i, hi, rfl⟩ := List.mem_map.1 hx
    obtain ⟨a, b, c⟩ := image_section i (List.mem_range.1 hi)
    rw [a, b, c]
    simp [dg]
  · have hq := head_counts q (List.mem_range.1 hq)
    rw [readN_image _ _ (.inl (by have := List.mem_range.1 ‹q ∈ _›; omega)), readN_image _ _ (.inl (by have := List.mem_range.1 ‹q ∈ _›; omega)), hq.1, hq.2]
    have hu : unpackHbm [] [] = [] := rfl
    have hl (k : Nat) : leafKeys [] 3 k = [] := by rw [leafKeys]; rfl
    rw [hu, hl]
    simp

theorem test_w_wake : sWake.commandBar 0 = none ∧ comArg0 (sWake.command 0) = 0x9000 ∧ comArg1 (sWake.command 0) = 0xA000 ∧ 0xA000 % 8 = 0 ∧
    0x9000 % 16 = 0 ∧ extentsOk (sWake.extents 0x9000) = true ∧ (sWake.sett 0).span ≠ .service ∧ sWake.hib.step = 0 ∧ (sWake.sett 0).cmdBusy = true := by
  have ha : (sWake.sett 0).commandAt = 0x8000 := by decide +kernel
  have hc : sWake.command 0 = Memory.readN wakeHead 0x8000 64 := by
    rw [State.command, ha]
    exact readN_wakeMem _ _ (fun b h1 h2 => ⟨by omega, fun j hj => by omega⟩)
  rw [wake_extents, State.commandBar, hc]
  decide +kernel

/-! ## Witnesses: the post buffer, and a lease that goes to the backing area -/

/-- Queue 5 fed by POST, with n cards waiting; card v has been read into core 0's post buffer. -/
def postReq : Req := req1 .post { arrived with value := 0 }
def cardIn (v : Nat) : PostCard := { crew := 0, pc := 0x1000, lane := 3, req := 7, card := some v }
def sPost (n v : Nat) : State :=
  let s := (queue5 n 5).hbmWriteKey 0 0x700000 64 1 0x1000 none
  (s.modCore 0 (fun g => { g with post := [cardIn v] })).setReq 7 (some postReq)

abbrev postedAs (p : Posted) : Nat := match p with | .taken _ => 1 | .full => 2 | .bad => 3

theorem test_w_posted : ((sPost 3 (card5 0)).core 0).post = [cardIn (card5 0)] ∧ (sPost 3 (card5 0)).req 7 = some postReq ∧
    postReq.lanes.all LaneReq.done = true ∧ postedAs (((sPost 3 (card5 0)).readCards 0).postCard 0 (card5 0)) = 1 ∧
    postedAs (((sPost 16 (card5 0)).readCards 0).postCard 0 (card5 0)) = 2 ∧ postedAs (((sPost 3 9).readCards 0).postCard 0 9) = 3 ∧
    ((sPost 3 9).crew 0).live = true ∧ ((sPost 3 9).crew 0).deferred = [] := by decide +kernel

/-- The gang's backing area is at 0x900000 of the engine's page. -/
def sBacking : State := (paged (leased (.lender 1))).modRecord 0 0 (fun x => { x with spill := 0x900000 })

theorem test_w_backing : (match (sBacking.crew 0).lease 1 with
    | some y => y.place = .lender 1 && (match sBacking.backing 0 1 y true with | .ok _ _ => true | _ => false)
    | none => false) = true := by decide +kernel

/-! ## Further witnesses -/

/-- The outbound filter lets everything below 2^32 through. -/
def hostOk (s : State) : State := s.modSett 0 (fun t => { t with filter := [(0, { en := true, base := 0, limit := 0xFFFFF, r := true, w := true })] })
def sStoreHost : State := hostOk (sStore { place := .host 0x500 } true)

/-- Lane 4 waits on an object of a core without a block. -/
def sGapWait : State := setTh sAsleep 4 (fun t => { t with st := .waiting { wOn 0 none with obj := nwb + 5 * 2 ^ 21 } })

def sPop : State := withPad (req1 .dqPop (padLane 0))
def sSteal : State := withPad (req1 .dqSteal (padLane 0))

/-- Page 1 of 4 GiB is window 6 on export 0 of module 2. -/
def windowed (s : State) : State :=
  (s.modCore 0 (fun g => { g with tlb := g.tlb ++ [entryFor (2 ^ 32) { codeLeaf with pa := 2 * 2 ^ 48 + 6 * 2 ^ 40 }] })).modSett 0
    (fun t => { t with windows := [(6, { handle := 2 * 2 ^ 52, size := 2 ^ 36, r := true, p := true, a := true, st := 1 })] })
def putTo (counter dst : Nat) : Copy := { startedTo 6 dst with put := true, barrier := counter }
def sPutWin : State := windowed (withCopy (putTo (nwb + 2 ^ 21) (2 ^ 32 + 0x100)))
def landedPut (counter dst : Nat) : Copy := { putTo counter dst with piece := 1, row := 1, flying := 1 }
def sLandedFar : State := windowed (withCopy (landedPut 0x60000 (2 ^ 32 + 0x100)))
def sLandedNear : State := windowed (withCopy (landedPut (nwb + 2 ^ 21) (2 ^ 32 + 0x100)))
def scored (s : State) : State := s.modCore 0 (fun g => { g with score := [{ copy := 7, lo := 0x40000, hi := 0x40040, gang := 0 }, { copy := 9, lo := 0x50000, hi := 0x50040, gang := 0 }] })
def sCopyDone : State := scored (withCopy { startedTo 6 0x50000 with piece := 1, row := 1 })
def sCopyFault : State := withCopy { startedTo 6 0x50000 with fault := some 3, missed := 4 }

def grpWith (c : Coll) : State := sP.modSett 0 (fun t => { t with groups := [(0, { v := true, attempt := 3, me := 1, n := 1 })], colls := [(2, some c)] })
def sGrpGot : State := paged (grpWith { coll2 with got := [(0, 5 * 2 ^ 64)] })
def sGrpDone : State := paged (grpWith { coll2 with got := [(0, 5 * 2 ^ 64), (1, 6 * 2 ^ 64)], doneCtr := 0x60000 })
def sGrpMine : State := paged (grpWith { coll2 with got := [(1, 5 * 2 ^ 64)] })
def collGather : Coll :=
  let c : Coll := { coll2 with op := 1 }
  { c with got := [(0, c.packet 5), (1, c.packet 0x0F060708090A0B0C0D0E0F1011121314)] }

def conv (p : Nat) : SeqOp := { running 2 p with converting := true, fetched := 1, inputs := [(0, (List.range 32).map (fun k => k * 7 + 1), [127])] }
/-- Slot 2 holds weights, and rows 3 and 0 of the accumulator numbers. -/
def armed (o : SeqOp) : State := (withOp o).modBlock 0 (fun b => { b with
  slots := Tab.set Tile.init b.slots 2 ({ (Tile.init.load ((List.range 512).map (fun k => k % 251)) 0) with compute := true, sums := true }),
  acc := [(1, 0x3F800000), (3 * 64 + 2, 0x40000000), (3 * 64 + 5, 0x7FC00000)] })
def sumOp (p : Nat) : SeqOp := { conv p with converting := false, vec := 1, sumv := 0, sums := [(1, 5), (2, 6)], planes := [((128 + 3) * 256 + 7, 33)], skips := [(4, some 9)] }
def accOp (k done : Nat) : SeqOp := { running 4 (accBlock k) with done := done }
def accNear (done : Nat) : SeqOp := { running 4 (4 + 2 * 16 + 3 * 2 ^ 16 + (nwb + 2 ^ 21 + 512) * 2 ^ 64) with done := done }

/-- Slots 2 and 3 of block 0 in compute mode, 32 rows in one group. -/
def computing (s : State) : State := s.modBlock 0 (fun b => { b with slots := [2, 3].foldl (fun (m : Tab Tile) (j : Nat) =>
  Tab.set Tile.init m j { Tile.init with compute := true, sums := true }) b.slots })
def sMmvQueued : State := computing (withOp (op7 2 .queued (some mmvBlock)))
def sAccQueued : State := withOp (op7 4 .queued (some (accBlock 0)))
def sAmodeQueued : State := withOp (amode7 .queued)
def sAmodeStore : State := computing (withOp { amode7 .waiting with compute := false })
/-- Core 1's entry of an operation of core 0 has ended. -/
def sTargetEnd : State := (withOp { op7 2 .running (some mmvBlock) with targets := 3 }).modCore 1
  (fun g => { g with seq := [{ op7 2 .retired (some mmvBlock) with core := 1, block := 1, reached := 2, flags := { gap := true } }] })
def sTrapped (st : SeqState) : State := withOp { op7 2 st (some mmvBlock) with reason := some 5, entry := some 3 }
def sBlockBad : State := withOp { op7 1 .queued none with addr := 0x40008 }
def sScored : State := scored (withOp { op7 1 .retired none with reached := 1 })

/-- Collective 4 of group 0 runs in sett 0 when step 1 of a hibernation has lasted 2^24 cycles. -/
def sHibGrp : State := { sGrp with hib := { step := 1 }, cycle := 2 ^ 25 }
def inService (s : State) : State := s.modSett 0 (fun t => { t with span := .service, keys := (9, some 5) :: t.keys })

def walkWith (f : Walk → Walk) : State := { sWalk false with walks := [(3, some (f (walkOf false)))] }
/-- Address 2^44 has no entry in the engine's tables. -/
def sWalkFault : State := walkWith (fun w => { w with va := 2 ^ 44 })
def sWalkHit : State := walkWith (fun w => { w with hit := some codeLeaf })
def faultOf (va res : Nat) (ws : List Waiter) : State :=
  (setTh (setTh (paged sP) 0 (fun t => { t with st := .parked })) 1 (fun t => { t with st := .parked })).modSett 0
    (fun t => { t with setbase := (5, 0xFFFF) :: t.setbase |>.reverse, faults := [(2, { faultAt va res with waiters := ws })] })
def sFaultThreads (va res : Nat) : State := faultOf va res [.threads 0 0x1000 3#32 90]
def sArrived : State := (sFault 0x50000 3).modSett 0 (fun t => { t with arrivals := [{ order := 0, fault := { faultAt 0x90000 0 with waiters := [.threads 0 0x1000 3#32 90] } }] })

def sQueueBad : State := ready5 (sQueue 9) false
def sKdescBad : State := ready5 ((sQueue (card5 0)).hbmWriteKey 0 0x700000 64 1 2 none) false
def sGenHeld : State := (ready5 (sQueue (card5 1)) true).modSett 0 (fun t => { t with launches := [{ launch5 with queue := 6 }] })
def sStartUp : State := (ready5 (sQueue (card5 0)) true).modSett 0 (fun t => { t with span := .startUp })
def sTwoAreas : State := (sRep 4).modSett 0 (fun t => { t with areas := [(2, area2 0x20000 4 [update4, { update4 with number := 5 }])] })

def unAuth (s : State) : State := s.modSett 0 (fun t => { t with authenticated := false })
def sRefresh : State := (sCom .service 2 0x600000 0).modSett 0 (fun t => { t with rcbs := [(0x600000, 1), (0x500000, 9)] })
theorem test_w_store_host : (match sStoreHost.req 7 with
    | some r => r.lanes.all (fun x => x.target.any (fun t => t.place = .host 0x500 && sStoreHost.portKind r t = none) && x.out && x.free && !x.done)
    | none => false) = true := by decide +kernel

theorem test_w_pop_steal : sPop.dequeReady 0 = [(1, 0, 3, 7)] ∧ sSteal.dequeReady 0 = [(2, 0, 3, 7)] ∧ sGapWait.seen 0 (nwb + 5 * 2 ^ 21) 0 = .gap := by
  decide +kernel

theorem test_w_put_pieces : (match sPutWin.translate 0 0 (2 ^ 32 + 0x100) 64 .write true with
      | .ok t => t.place = .remote 6 0x100 && t.window.isSome && !t.rep
      | _ => false) = true ∧ sPutWin.turnBefore 7 (putTo (nwb + 2 ^ 21) (2 ^ 32 + 0x100)) = false ∧
    sLandedFar.copy 7 = some (landedPut 0x60000 (2 ^ 32 + 0x100)) ∧ isNear 0x60000 = false ∧
    (match sLandedFar.seekTarget (landedPut 0x60000 (2 ^ 32 + 0x100)) 0x60000 8 .write with
      | .ok t => t.place = .hbm 0 0x60000 && t.window.isNone && sLandedFar.placeKind 0 t = none
      | _ => false) = true ∧ inContext 0x60000 = false ∧
    sLandedNear.copy 7 = some (landedPut (nwb + 2 ^ 21) (2 ^ 32 + 0x100)) ∧ isNear (nwb + 2 ^ 21) = true := by decide +kernel

theorem test_w_copy_retires : (sCopyDone.copy 7).map (fun c => (c.flying, c.owed, c.fault, c.spent)) = some (0, [], none, true) ∧
    (sCopyFault.copy 7).map (fun c => (c.flying, c.owed, c.fault)) = some (0, [], some 3) ∧ (sCopyFault.crew 0).live = true ∧
    (sCopyFault.crew 0).deferred.length < 8 := by decide +kernel

theorem test_w_contributions : (∃ c, sGrpMine.collSlot 0 0 3 4 = some (2, c) ∧ c.got.length = (sGrpMine.group 0 0).n ∧ ∀ p ∈ c.got, p.1 ≠ 0) ∧
    (∃ c, sGrpGot.collSlot 0 0 3 4 = some (2, c) ∧ (∃ p ∈ c.got, p.1 = 0) ∧ (∀ p ∈ c.got, p.1 ≠ (sGrpGot.group 0 0).me) ∧
      bufOk sGrpGot (sGrpGot.collBuffer 0 c.send (c.sizes 2).1 .read false) = true) ∧
    (∃ c, sGrpDone.collSlot 0 0 3 4 = some (2, c) ∧ c.doneCtr ≠ 0 ∧
      (match sGrpDone.collTarget 0 c.doneCtr 8 .write false with | .ok _ => true | _ => false) = true) ∧
    collGather.unequal = false ∧ collGather.op = 1 ∧ collGather.got.find? (fun p => p.1 = 1) = some (1, collGather.packet 0x0F060708090A0B0C0D0E0F1011121314) :=
  ⟨⟨{ coll2 with got := [(1, 5 * 2 ^ 64)] }, by decide +kernel⟩, ⟨{ coll2 with got := [(0, 5 * 2 ^ 64)] }, by decide +kernel⟩,
    ⟨{ coll2 with got := [(0, 5 * 2 ^ 64), (1, 6 * 2 ^ 64)], doneCtr := 0x60000 }, by decide +kernel⟩, by decide +kernel⟩

theorem test_w_product_steps : (armed (conv mmvBlock)).seqOp 0 7 = some (conv mmvBlock) ∧ (conv mmvBlock).converting = true ∧
    (sumOp mmvBlock).vector (sumOp mmvBlock).sumv = some 0 ∧ (sumOp mmvBlock).done % mChains mmvBlock + 1 = mChains mmvBlock ∧
    (sumOp mmvBlock).done + 1 = (sumOp mmvBlock).count * mChains mmvBlock ∧ mChains mmvBlock = 1 := by decide +kernel

theorem test_w_acc_stores : (accOp 2 0).done < aRows (accBlock 2) ∧ aOp (accBlock 2) = 2 ∧ aRows (accBlock 2) ≤ (accOp 2 1).done ∧
    (armed (accOp 2 1)).accWrites 7 = false ∧
    (match (armed (accOp 2 0)).translate 0 0 (rowAddr (aMem (accBlock 2)) (aStride (accBlock 2)) 0) (aBytes (accBlock 2)) .write true with
      | .ok t => t.window.isNone && !t.rep
      | _ => false) = true ∧
    (match (accNear 0).params with
      | some p => isNear (rowAddr (aMem p) (aStride p) 0) && padBytesAt (rowAddr (aMem p) (aStride p) 0) (aBytes p) &&
          !(armed (accNear 0)).scoredBut (accNear 0) (rowAddr (aMem p) (aStride p) 0) (aBytes p)
      | none => false) = true := by decide +kernel

theorem test_w_seq_starts : (sMmvQueued.core 0).startable = some (op7 2 .queued (some mmvBlock)) ∧
    (∀ x ∈ sMmvQueued.opTiles (op7 2 .queued (some mmvBlock)), x.compute = true ∧ groupOf (mG mmvBlock) ≤ x.spanRows) ∧
    (sMmvQueued.block 0).ended = false ∧ mFirst mmvBlock + mChains mmvBlock * mLen mmvBlock ≤ (sMmvQueued.block 0).arrays ∧
    mArow mmvBlock + mVecs mmvBlock * mChains mmvBlock ≤ (sMmvQueued.block 0).accum ∧
    (sAccQueued.core 0).startable = some (op7 4 .queued (some (accBlock 0))) ∧ aOp (accBlock 0) = 0 ∧
    (sAmodeQueued.core 0).startable = some (amode7 .queued) ∧ oFirst (amode7 .queued).addr + oCnt (amode7 .queued).addr ≤ (sAmodeQueued.block 0).arrays ∧
    16 * oBar (amode7 .queued).addr + 16 ≤ (sAmodeQueued.block 0).scratch := by decide +kernel

theorem test_w_seq_retires : ((sTargetEnd.seqOp 1 7).map (fun o => (o.state, o.home))) = some (.retired, 0) ∧ (sTargetEnd.seqOp 0 7).isSome = true ∧
    ((sTrapped .running).seqOp 0 7).map (fun o => (o.reason, o.trapped)) = some (some 5, false) ∧ (sTrapped .running |>.crew 0).live = true ∧
    (∃ r, sBlockBad.blockReason { op7 1 .queued none with addr := 0x40008 } = some r) ∧ (sScored.core 0).score ≠ [] ∧
    amodeReady (sAmodeStore.barrier 0 (16 * oBar (amode7 .waiting).addr)) (oPhase (amode7 .waiting).addr) = true ∧
    (sAmodeStore.core 0).restoring = none :=
  ⟨by decide +kernel, by decide +kernel, by decide +kernel, by decide +kernel, ⟨4, by decide +kernel⟩, by decide +kernel, by decide +kernel, by decide +kernel⟩

theorem test_w_walk_ends : (sWalkHit.sett 0).missWait = [] ∧ (match sWalkFault.walk 0 (2 ^ 44) with | .fault 1 3 => true | _ => false) = true ∧
    ((sWalkFault.crew 0).thread 1).st = .parked ∧ MayTrap 0 (sFaultThreads 0x50000 0) ∧
    ((sFaultThreads 0x50000 0).fault 0 2).waiters = [.threads 0 0x1000 3#32 90] ∧ leafIs ((sFaultThreads 0x50000 1).walk 0 0x50000) = true ∧
    (sArrived.sett 0).arrivals.map (fun a => (a.fault.rp, (sArrived.openEntry 0 a.fault).isNone)) = [(true, true)] ∧ sArrived.freeEntry 0 = some 0 := by
  decide +kernel

theorem test_w_card_ends : cardOk 9 5 = false ∧ (sQueueBad.queue 0 5).checked = false ∧ (sQueueBad.queue 0 5).admitted = true ∧ kdescOk 2 = false ∧
    sKdescBad.engineRead 0 (cKdesc (card5 0)) 64 = some 2 ∧ cGen (card5 1) = true ∧ (sGenHeld.sett 0).launches ≠ [] ∧ sGenHeld.leadHolds 0 5 = false ∧
    (sStartUp.sett 0).span = .startUp ∧ sStartUp.intake 0 = true := by decide +kernel

theorem test_w_more_states : ((sTwoAreas.area 0 2).pending.map Update.number) = [4, 5] ∧ (sHibGrp.sett 0).running = [(0, 3)] ∧ 1 ≤ sHibGrp.hib.step ∧
    sHibGrp.hib.accepted + 2 ^ 24 ≤ sHibGrp.cycle ∧ ((inService (sSess 5)).keyOf 0 9).isSome = true ∧ ((inService (sSess 5)).sett 0).span = .service ∧
    (unAuth (sCom .service 2 0x500 0)).commandBar 0 = some 4 ∧ sRefresh.commandBar 0 = none ∧ comArg0 (sRefresh.command 0) % 128 = 0 ∧
    Tab.get 0 (sRefresh.sett 0).rcbs 0x600000 ≠ 0 := by decide +kernel

end Sys2Proof.Tests
end

section
/-! PROOF. The transfer of the twelve predicates (R130). -/

namespace Sys2Proof.Machine

/-! ## Writing a table at each index of a list -/

theorem Tab.get_foldl_set {β : Type} [DecidableEq β] (d : β) (g : Nat → β) (ls : List Nat) (t : Tab β) (j : Nat) :
    Tab.get d (ls.foldl (fun t l => Tab.set d t l (g l)) t) j = if j ∈ ls then g j else Tab.get d t j := by
  induction ls generalizing t with
  | nil => simp
  | cons l ls ih =>
    rw [List.foldl_cons, ih, Tab.get_set]
    by_cases hj : j ∈ ls
    · simp [hj]
    · by_cases hl : j = l <;> simp [hj, hl]

theorem Crew.foldl_setPreds (g : Nat → BitVec 12) (ls : List Nat) (c : Crew) :
    ls.foldl (fun (c : Crew) l => { c with preds := Tab.set 0 c.preds l (g l) }) c =
      { c with preds := ls.foldl (fun t l => Tab.set 0 t l (g l)) c.preds } := by
  induction ls generalizing c with
  | nil => rfl
  | cons l ls ih => rw [List.foldl_cons, ih, List.foldl_cons]

/-! ## The end of an issue, for an effect that moves no thread -/

theorem State.finish_advanced {s : State} {u : Issue} {i : Instr} {c : Crew} (h : c.threads = (s.crew u.crew).threads) :
    Advanced i u (s.crew u.crew) ((s.finish u i c).crew u.crew) := by
  intro l
  have same : c.thread l = (s.crew u.crew).thread l := by unfold Crew.thread; rw [h]
  have moved := Crew.advance_advanced c u i s.cycle l
  rw [same] at moved
  rw [State.finish_crew]
  exact moved

/-! ## XTOP -/

/-- The word that XTOP reads in a lane: operand 0, of which bits 11:0 count. -/
def Crew.xtopWord (c : Crew) (i : Instr) (l : Nat) : BitVec 12 := BitVec.ofNat 12 (operandsAt i c (0, 0) l 0)

/-- XTOP counts its read and writes one predicate word in each active and each zeroed lane, and does nothing else to the crew. -/
theorem Crew.computeXtop_eq (c : Crew) (i : Instr) (u : Issue) :
    c.computeXtop i u = { c with
      regs := (c.countReads (info i).readRegs (c.active i u.lanes)).regs,
      preds := (c.zeroed i u.lanes).foldl (fun t l => Tab.set 0 t l 0)
        ((c.active i u.lanes).foldl (fun t l => Tab.set 0 t l (c.xtopWord i l)) c.preds) } := by
  simp only [Crew.computeXtop, List.foldl_map, Crew.foldl_setPreds]
  rw [Crew.countReads_regs]
  rfl

theorem Crew.computeXtop_slot_val (c : Crew) (i : Instr) (u : Issue) (r l : Nat) (hl : l < 32) :
    ((c.computeXtop i u).slot r l).val = (c.slot r l).val := by
  rw [Crew.computeXtop_eq]
  exact Crew.countReads_val c _ _ r l hl (fun _ h => lanesOf_lt (Crew.active_sub h))

theorem Crew.computeXtop_preds (c : Crew) (i : Instr) (u : Issue) (l : Nat) :
    Tab.get 0 (c.computeXtop i u).preds l =
      if l ∈ c.zeroed i u.lanes then 0 else if l ∈ c.active i u.lanes then c.xtopWord i l else Tab.get 0 c.preds l := by
  rw [Crew.computeXtop_eq, Tab.get_foldl_set (g := fun _ => 0), Tab.get_foldl_set]

/-- A single register as an operand of element (0, 0) is the register's own value. -/
theorem Crew.operand_single (c : Crew) (n l : Nat) : c.operand (n, 1) (0, 0) l = (c.slot (c.win n) l).val.toNat := by
  simp [Crew.operand, opRegs, opField]

theorem Crew.xtopWord_getLsbD (c : Crew) (px : Option Pfx) (a : BitVec 7) (g : BitVec 4) (l p : Nat) (hp : p < 12) :
    (c.xtopWord (.xtop px a g) l).getLsbD p = (c.slot (c.win a.toNat) l).val.getLsbD p := by
  have word : operandsAt (.xtop px a g) c (0, 0) l 0 = (c.slot (c.win a.toNat) l).val.toNat := Crew.operand_single c a.toNat l
  rw [Crew.xtopWord, word, BitVec.getLsbD_ofNat, BitVec.testBit_toNat]
  simp [hp]

/-- The predicates after XTOP (R130, R38): of an active, of a zeroed and of any other lane. -/
theorem Crew.computeXtop_pred (c : Crew) (px : Option Pfx) (a : BitVec 7) (g : BitVec 4) (u : Issue) (l p : Nat) (hp : p < 12) :
    (l ∈ c.active (.xtop px a g) u.lanes →
      (c.computeXtop (.xtop px a g) u).pred l p = (c.slot (c.win a.toNat) l).val.getLsbD p) ∧
    (l ∈ c.zeroed (.xtop px a g) u.lanes → (c.computeXtop (.xtop px a g) u).pred l p = false) ∧
    (l ∉ c.active (.xtop px a g) u.lanes ++ c.zeroed (.xtop px a g) u.lanes →
      (c.computeXtop (.xtop px a g) u).pred l p = c.pred l p) := by
  simp only [Crew.pred, Crew.computeXtop_preds, List.mem_append, not_or]
  refine ⟨fun active => ?_, fun zeroed => ?_, fun ⟨inactive, kept⟩ => ?_⟩
  · rw [if_neg (Crew.active_not_zeroed active), if_pos active, Crew.xtopWord_getLsbD c px a g l p hp]
  · rw [if_pos zeroed, BitVec.ofNat_eq_ofNat, BitVec.getLsbD_zero]
  · rw [if_neg kept, if_neg inactive]

theorem exec_xtop {px : Option Pfx} {a : BitVec 7} {g : BitVec 4} {u : Issue} {s : State} (h : Runs (.xtop px a g) u s) :
    exec (.xtop px a g) s =
      .next (s.finish u (.xtop px a g) ((s.crew u.crew).computeXtop (.xtop px a g) u)) :=
  State.issue_runs h _

/-! ## PTOX -/

theorem ptox_gives (px : Option Pfx) (d : BitVec 7) (g : BitVec 4) (u : Issue) (s : State) :
    Gives (.ptox px d g) u s (fun l _ _ => (Tab.get 0 (s.crew u.crew).preds l).toNat) :=
  aluAt_gives (o := (d.toNat, 1)) (fn := fun c _ l _ _ => (Tab.get 0 c.preds l).toNat) rfl rfl (fun _ _ _ _ _ _ => rfl)

/-! ## The major code of a word of the three-register format (R33) -/

theorem reg3_major (m : Nat) (d a b : BitVec 7) (g : BitVec 4) : (reg3 m d a b g).extractLsb' 25 7 = BitVec.ofNat 7 m := by
  calc (reg3 m d a b g).extractLsb' 25 7
      _ = (BitVec.ofNat 7 m ++ d ++ a ++ b).extractLsb' 21 7 := BitVec.extractLsb'_append_eq_of_le (by decide)
      _ = (BitVec.ofNat 7 m ++ d ++ a).extractLsb' 14 7 := BitVec.extractLsb'_append_eq_of_le (by decide)
      _ = (BitVec.ofNat 7 m ++ d).extractLsb' 7 7 := BitVec.extractLsb'_append_eq_of_le (by decide)
      _ = BitVec.ofNat 7 m := BitVec.extractLsb'_append_eq_left

/-- Settles O12: PTOX by the shared procedure of R102, XTOP by what its two passes over the lanes leave in the table of predicates. -/
theorem predicateTransfer : Obligations.PredicateTransfer := by
  intro px d a g u s
  refine ⟨reg3_major _ _ _ _ _, reg3_major _ _ _ _ _, ptox_gives px d g u s, fun _ _ _ => rfl, fun runs => ?_⟩
  have frame := Crew.computeXtop_eq (s.crew u.crew) (.xtop px a g) u
  have pred := Crew.computeXtop_pred (s.crew u.crew) px a g u
  refine ⟨_, exec_xtop runs, State.finish_onlyCrew .., State.finish_advanced (by rw [frame]), ?_⟩
  simp only [State.finish_crew]
  refine ⟨Crew.computeXtop_slot_val _ _ u, ?_, fun l active p hp => ?_, fun l zeroed p hp => ?_, fun l other p hp => ?_⟩
  · unfold CrewKeptPreds
    rw [frame]
  · exact (pred l p hp).1 active
  · exact (pred l p hp).2.1 zeroed
  · exact (pred l p hp).2.2 other

end Sys2Proof.Machine
end

section
/-! PROOF. The window (R178), WAIT (R166), and what taking a trap leaves (R346). -/

namespace Sys2Proof.Machine

/-! ## The major code of a word of the immediate format (R33) -/

theorem b21_major (m : Nat) (i : BitVec 21) (g : BitVec 4) : (b21 m i g).extractLsb' 25 7 = BitVec.ofNat 7 m := by
  calc (b21 m i g).extractLsb' 25 7
      _ = (BitVec.ofNat 7 m ++ i).extractLsb' 21 7 := BitVec.extractLsb'_append_eq_of_le (by decide)
      _ = BitVec.ofNat 7 m := BitVec.extractLsb'_append_eq_left

/-! ## Taking a trap (R346): what the fault unit gives up -/

/-- The crews and the host memory are as they were. -/
def CrewsKept (s t : State) : Prop := t.crews = s.crews ∧ t.hostMem = s.hostMem

theorem CrewsKept.crew {s t : State} (h : CrewsKept s t) (k : Nat) : t.crew k = s.crew k := by
  unfold State.crew; rw [h.1]

theorem State.setFault_crewsKept (s : State) (q e : Nat) (f : FaultEntry) : CrewsKept s (s.setFault q e f) := by
  unfold State.setFault
  dsimp only
  split <;> exact ⟨rfl, rfl⟩

theorem State.forEach_crewsKept {α : Type} (f : α → State → State) (step : ∀ a s, CrewsKept s (f a s)) (l : List α) (s : State) :
    CrewsKept s (forEach l s f) := by
  induction l generalizing s with
  | nil => exact ⟨rfl, rfl⟩
  | cons a l ih =>
    obtain ⟨crews, host⟩ := step a s
    obtain ⟨crews', host'⟩ := ih (f a s)
    exact ⟨crews'.trans crews, host'.trans host⟩

theorem State.dropWaiters_crewsKept (s : State) (q : Nat) (p : Waiter → Bool) : CrewsKept s (s.dropWaiters q p) :=
  State.forEach_crewsKept (fun (e : Nat × FaultEntry) t => t.setFault q e.1 { e.2 with waiters := e.2.waiters.filter (fun w => !p w) })
    (fun _ _ => State.setFault_crewsKept ..) _ s

theorem State.forgetThreads_crewsKept (s : State) (k : Nat) : CrewsKept s (s.forgetThreads k) := by
  unfold State.forgetThreads
  split
  · exact ⟨rfl, rfl⟩
  · exact State.dropWaiters_crewsKept ..

/-- A crew of which no thread is parked has nothing at the fault unit to give up. -/
theorem State.forgetThreads_none_parked {s : State} {k : Nat} (h : (s.crew k).threads.all (fun p => p.2.st != .parked) = true) :
    s.forgetThreads k = s := if_pos h

/-! ## Taking a trap (R346): the crew in its handler -/

/-- A table written out for the keys below `n` reads as it was written. -/
theorem Tab.get_map_range {β : Type} (d : β) (f : Nat → β) {n l : Nat} (hl : l < n) :
    Tab.get d ((List.range n).map (fun j => (j, f j))) l = f l := by
  have listed : ∀ ls : List Nat, l ∈ ls → Tab.get d (ls.map (fun j => (j, f j))) l = f l := by
    intro ls mem
    induction ls with
    | nil => cases mem
    | cons j ls ih =>
      rw [List.map_cons, Tab.get]
      split
      · next same => rw [same]
      · next other => exact ih ((List.mem_cons.mp mem).resolve_left other)
  exact listed _ (List.mem_range.mpr hl)

theorem Crew.enterTrap_thread (c : Crew) (h now code : Nat) (pc : BitVec 64) (why : Nat) (lanes : Option LaneMask)
    (entry : Option Nat) {l : Nat} (hl : l < 32) :
    (c.enterTrap h now code pc why lanes entry).thread l = { pc := BitVec.ofNat 64 h, st := .ready, wait := 0, due := now } :=
  Tab.get_map_range _ _ hl

/-- Where the crew may take a trap, it enters the handler of its region. -/
theorem State.takeTrap_eq {s : State} {k : Nat} (may : MayTrap k s) (t : Trap) (pc : BitVec 64) (why : Nat) (lanes : Option LaneMask)
    (entry : Option Nat) :
    s.takeTrap k t pc why lanes entry = (s.forgetThreads k).setCrew k
      ((s.crew k).enterTrap (s.record (crewSett k) (crewRec k)).handler s.cycle t.code pc why lanes entry) := by
  obtain ⟨outside, handler⟩ := may
  simp [State.takeTrap, outside, handler]

theorem State.takeTrap_trapped {s : State} {k : Nat} (may : MayTrap k s) (t : Trap) (pc : BitVec 64) (why : Nat)
    (lanes : Option LaneMask) (entry : Option Nat) :
    Trapped k s (s.takeTrap k t pc why lanes entry) t.code pc why lanes := by
  have same := State.forgetThreads_crewsKept s k
  rw [State.takeTrap_eq may]
  constructor
  case threads =>
    intro l hl
    rw [State.setCrew_crew_same, Crew.enterTrap_thread _ _ _ _ _ _ _ _ hl]
    exact ⟨rfl, rfl⟩
  case others => exact fun j hj => (State.setCrew_crew_other _ _ _ _ hj).trans (same.crew j)
  case mem => exact ⟨same.2, fun none => by rw [State.setCrew_hbm, State.forgetThreads_none_parked none]⟩
  case preds => rw [State.setCrew_crew_same]; exact ⟨rfl, rfl, rfl⟩
  case values => intro r l _; rw [State.setCrew_crew_same]; rfl
  all_goals rw [State.setCrew_crew_same]; rfl

/-! ## An instruction that only passes -/

theorem State.finish_passed (s : State) (u : Issue) (i : Instr) : Passed i u s (s.finish u i (s.crew u.crew)) where
  only := State.finish_onlyCrew ..
  moved := State.finish_advanced rfl
  kept := by rw [State.finish_crew]

/-! ## WIN (R178) -/

/-- The base that WIN names, before it is held against the allocation. -/
def Crew.namedBase (c : Crew) (abs : Bool) (k : BitVec 14) : Int := if abs then k.toInt else c.wb + k.toInt

theorem Crew.newBase_inside {c : Crew} {abs : Bool} {k : BitVec 14} (low : 0 ≤ c.namedBase abs k)
    (high : c.namedBase abs k < (c.nregs / 16 : Nat)) : c.newBase abs k = some (c.namedBase abs k).toNat :=
  if_pos ⟨low, high⟩

theorem Crew.newBase_outside {c : Crew} {abs : Bool} {k : BitVec 14}
    (out : ¬ (0 ≤ c.namedBase abs k ∧ c.namedBase abs k < (c.nregs / 16 : Nat))) : c.newBase abs k = none :=
  if_neg out

section
variable {x : Instr} {u : Issue} {s : State} (abs : Bool) (k : BitVec 14)

theorem window_inactive (runs : Runs x u s) (inactive : (s.crew u.crew).active x u.lanes = []) :
    window x abs k s = .next (s.finish u x (s.crew u.crew)) := by
  rw [window, State.issue_runs runs]
  simp only [inactive, if_true]

theorem window_moves {wb : Nat} (runs : Runs x u s) (active : (s.crew u.crew).active x u.lanes ≠ [])
    (base : (s.crew u.crew).newBase abs k = some wb) :
    window x abs k s = .next (s.finish u x { s.crew u.crew with wb := wb, nextAt := s.cycle + 8 }) := by
  rw [window, State.issue_runs runs]
  simp only [active, if_false, base]

theorem window_traps (runs : Runs x u s) (active : (s.crew u.crew).active x u.lanes ≠ [])
    (base : (s.crew u.crew).newBase abs k = none) :
    window x abs k s = .next (s.takeTrap u.crew .regAlloc u.pc 0 (some u.lanes)) := by
  rw [window, State.issue_runs runs]
  simp only [active, if_false, base]

end

/-! ## WAIT (R166) -/

section
variable {px : Option Pfx} {l : BitVec 6} {st : BitVec 5} {c : BitVec 6} {t g : BitVec 4} {u : Issue} {s : State}

/-- Every counter of the crew stands at or below the limit that WAIT names. -/
def Crew.withinLimits (k : Crew) (l : BitVec 6) (st : BitVec 5) (c : BitVec 6) (t : BitVec 4) : Prop :=
  k.loads ≤ l.toNat ∧ k.stores ≤ st.toNat ∧ k.copies ≤ c.toNat ∧ k.tiles ≤ t.toNat

theorem exec_wait_passes (runs : Runs (.wait px l st c t g) u s)
    (ready : (s.crew u.crew).active (.wait px l st c t g) u.lanes = [] ∨ (s.crew u.crew).withinLimits l st c t) :
    exec (.wait px l st c t g) s = .next (s.finish u (.wait px l st c t g) (s.crew u.crew)) := by
  refine (State.issue_runs runs _).trans (if_pos ?_)
  simpa [Crew.withinLimits, and_assoc] using ready

theorem exec_wait_stays (runs : Runs (.wait px l st c t g) u s)
    (active : (s.crew u.crew).active (.wait px l st c t g) u.lanes ≠ []) (above : ¬ (s.crew u.crew).withinLimits l st c t) :
    exec (.wait px l st c t g) s = .next s := by
  refine (State.issue_runs runs _).trans (if_neg ?_)
  simpa [Crew.withinLimits, and_assoc, active] using above

end

end Sys2Proof.Machine

/-! ## The statements. `window` in `Sys2Proof.Machine` is the model's function. -/

namespace Sys2Proof

open Machine

/-- Settles O16: relative and absolute form are one function of the named base, which either lies in the allocation or traps. -/
theorem window : Obligations.Window := by
  intro px k g u s
  refine ⟨rfl, rfl, rfl, rfl, rfl, fun i v form runs => ?_⟩
  obtain ⟨abs, step, named⟩ : ∃ abs, exec i s = Machine.window i abs k s ∧ v = (s.crew u.crew).namedBase abs k := by
    rcases form with ⟨rfl, rfl⟩ | ⟨rfl, rfl⟩
    · exact ⟨false, rfl, rfl⟩
    · exact ⟨true, rfl, rfl⟩
  rw [step, named]
  refine ⟨fun inactive => ?_, fun active low high => ?_, fun active out may => ?_⟩
  · exact ⟨_, window_inactive abs k runs inactive, State.finish_passed ..⟩
  · refine ⟨_, window_moves abs k runs active (Crew.newBase_inside low high), State.finish_onlyCrew .., ?_, ?_,
      State.finish_advanced rfl, fun r l _ => ?_, ?_⟩
    all_goals rw [State.finish_crew]
    all_goals rfl
  · exact ⟨_, window_traps abs k runs active (Crew.newBase_outside out), State.takeTrap_trapped may ..⟩

/-- Settles O17: WAIT asks only whether a lane is active and whether the four counters stand within their limits. -/
theorem wait : Obligations.Wait := by
  intro px l st c t g u s
  refine ⟨b21_major _ _ _, fun runs => ⟨fun ready => ?_, fun active above => ?_⟩⟩
  · exact ⟨_, exec_wait_passes runs ready, State.finish_passed ..⟩
  · exact exec_wait_stays runs active above

end Sys2Proof
end

section
/-! PROOF. The fields of a barrier object (R256) and the completion test after its updates (R257). -/

namespace Sys2Proof.Machine

/-- A limit of R256: the count is held to its maximum, and sat records whether that changed it. -/
theorem capped_eq (m v : Nat) (sat : Bool) : capped m v sat = (min v m, sat || decide (m < v)) := by
  unfold capped
  split
  case isTrue above => simp [above, Nat.min_eq_right above.le]
  case isFalse within => simp [within, Nat.min_eq_left (Nat.le_of_not_lt within)]

namespace BarObj

variable (o : BarObj)

/-! ## The completion test keeps what is expected -/

@[simp] theorem exparv_test : o.test.exparv = o.exparv := by
  unfold test
  split <;> rfl

@[simp] theorem expbytes_test : o.test.expbytes = o.expbytes := by
  unfold test
  split <;> rfl

/-! ## One equation per update that counts -/

theorem update_arrive :
    o.update .arrive = test { o with arv := min (o.arv + 1) arvMax, sat := o.sat || decide (arvMax < o.arv + 1) } := by
  simp only [update, capped_eq]

theorem update_expect (n : Nat) :
    o.update (.expect n) =
      test { o with expbytes := min (o.expbytes + n) byteMax, sat := o.sat || decide (byteMax < o.expbytes + n) } := by
  simp only [update, capped_eq]

theorem update_land (n : Nat) :
    o.update (.land n) =
      test { o with landed := min (o.landed + n) byteMax, sat := o.sat || decide (byteMax < o.landed + n) } := by
  simp only [update, capped_eq]

/-- Only BINIT and BEXP change what a phase expects (R256). -/
theorem update_keeps_expected (u : BarUpdate) (notInit : ∀ a b, u ≠ .init a b) (notExpect : ∀ n, u ≠ .expect n) :
    (o.update u).exparv = o.exparv ∧ (o.update u).expbytes = o.expbytes := by
  cases u with
  | init a b => exact absurd rfl (notInit a b)
  | expect n => exact absurd rfl (notExpect n)
  | arrive => simp [update_arrive]
  | land n => simp [update_land]
  | break_ => exact ⟨rfl, rfl⟩

end BarObj

end Sys2Proof.Machine

namespace Sys2Proof

open Machine

/-- Settles O40: each limit is one use of the capped count, and the completion test leaves the expected fields alone. -/
theorem barrierFields : Obligations.BarrierFields := by
  intro o n a b
  exact ⟨rfl, o.update_arrive, o.update_expect n, o.update_land n, o.update_keeps_expected, rfl⟩

end Sys2Proof
end

section
/-! PROOF. Taking a trap (R346): what else of the crew and of the machine stays, and where the gang is killed (R346, R347). -/

namespace Sys2Proof.Machine

/-- Of the crew, a trap changes the frame, the trap registers, the mode and the threads alone. -/
theorem State.takeTrap_crewKept {s : State} {k : Nat} (may : MayTrap k s) (t : Trap) (pc : BitVec 64) (why : Nat)
    (lanes : Option LaneMask) (entry : Option Nat) :
    let d := (s.takeTrap k t pc why lanes entry).crew k
    d = { s.crew k with handler := true, frame := d.frame, trapCode := d.trapCode, trapPc := d.trapPc, trapInfo := d.trapInfo,
                        trapLanes := lanes, trapEntry := entry, threads := d.threads } := by
  rw [State.takeTrap_eq may, State.setCrew_crew_same]
  rfl

/-- Beside the crews, a trap leaves what giving up the waiting accesses leaves. -/
theorem State.takeTrap_onlyCrews {s : State} {k : Nat} (may : MayTrap k s) (t : Trap) (pc : BitVec 64) (why : Nat)
    (lanes : Option LaneMask) (entry : Option Nat) :
    s.takeTrap k t pc why lanes entry = { s.forgetThreads k with crews := (s.takeTrap k t pc why lanes entry).crews } := by
  rw [State.takeTrap_eq may]
  rfl

/-- A crew in its handler, and one whose region has none, cannot take a trap: its gang is killed. -/
theorem State.takeTrap_kills {s : State} {k : Nat} (mayNot : ¬ MayTrap k s) (t : Trap) (pc : BitVec 64) (why : Nat)
    (lanes : Option LaneMask) (entry : Option Nat) :
    s.takeTrap k t pc why lanes entry = s.killGang (crewSett k) (crewRec k) := by
  have stuck : ((s.crew k).handler || decide ((s.record (crewSett k) (crewRec k)).handler = 0)) = true := by
    rw [Bool.or_eq_true, decide_eq_true_iff]
    by_contra free
    obtain ⟨outside, handler⟩ := not_or.mp free
    exact mayNot ⟨Bool.eq_false_of_not_eq_true outside, handler⟩
  exact if_pos stuck

end Sys2Proof.Machine

namespace Sys2Proof

open Machine

/-- Settles O8: a trap that may be taken sets the one crew in the state that has given up its waiting accesses; any other kills the gang. -/
theorem takingATrap : Obligations.TakingATrap := by
  intro s k t pc why lanes
  refine ⟨fun may => ⟨?_, ?_, ?_, ?_⟩, fun mayNot => State.takeTrap_kills mayNot ..⟩
  · exact State.takeTrap_trapped may ..
  · exact State.takeTrap_crewKept may ..
  · exact State.takeTrap_onlyCrews may ..
  · exact State.forgetThreads_none_parked

end Sys2Proof
end
